-- ==== Sys2Proof/Word.lean ====
section
/-! DEFINITION. The values PUE works on: bytes, 16-bit lanes, and the eight-lane pixel group (spec rules R10, R21, R43). -/

namespace Sys2Proof

/-- A payload byte or a tag: an unsigned 8-bit value (rule R12). -/
abbrev Byte := BitVec 8

/-- One lane of the wide form: 16 bits (rule R43; `WIDE` of rule R10). -/
abbrev Half := BitVec 16

/-- Eight lanes (`LANES` of rule R10). `Lanes Byte` is a pixel-group register in its narrow form
(rule R21), `Lanes Half` its wide form (rule R43), `Lanes Bool` a lane mask (rule R155). -/
structure Lanes (α : Type) where
  l0 : α
  l1 : α
  l2 : α
  l3 : α
  l4 : α
  l5 : α
  l6 : α
  l7 : α
  deriving DecidableEq, Repr, Inhabited

end Sys2Proof
end

