-- ==== Sys2Proof/Config.lean ====
section
/-! DEFINITION. What an instance of PUE fixes (the open parameters of rule R10), the closed sets of names those
parameters range over, and the free values the spec leaves unspecified. -/

namespace Sys2Proof

/-- The five reconstruction operations that have a kernel (rules R3, R120). -/
inductive Filter where
  | sub
  | up
  | avg
  | avgtop
  | paeth
  deriving DecidableEq, Repr, Inhabited

/-- `OP`, the decoded operation of a row (rule R27): `NOP` or one of the five kernels' operations. -/
inductive Op where
  | nop
  | sub
  | up
  | avg
  | avgtop
  | paeth
  deriving DecidableEq, Repr, Inhabited

/-- A field value of `SEL` (rule R37): 0 SCALAR, 1 VX1, 2 VX2, 3 VA. -/
inductive Kernel where
  | scalar
  | vx1
  | vx2
  | va
  deriving DecidableEq, Repr, Inhabited

/-- `PHASE` (rule R26): which micro-step of the row loop comes next. -/
inductive Phase where
  | fetch
  | group
  | retire
  deriving DecidableEq, Repr, Inhabited

/-- The bytes-per-pixel thresholds of one operation, one for each vector family (rule R10). -/
structure FamilyThresholds where
  vx1 : Nat
  vx2 : Nat
  va  : Nat
  deriving DecidableEq, Repr

/-- `THR[op][fam]` (rules R10, R185): fifteen natural numbers. -/
structure Thresholds where
  sub    : FamilyThresholds
  up     : FamilyThresholds
  avg    : FamilyThresholds
  avgtop : FamilyThresholds
  paeth  : FamilyThresholds
  deriving DecidableEq, Repr

/-- The open parameters of one PUE (rule R10): the address width `AW`, the constant register `FEAT`
(bit 0 VX1, bit 1 VX2, bit 2 VA; rule R35), the thresholds and `CFG.STRICT` (rule R41).
They are arguments of the model: every statement is for every value of them (log entry 1). -/
structure Params where
  aw     : Nat
  feat   : BitVec 3
  thr    : Thresholds
  strict : Bool
  deriving DecidableEq, Repr

namespace Config

/-- `BPP_MIN` (rule R10). -/
abbrev bppMin : Nat := 1

/-- `BPP_MAX` (rule R10). -/
abbrev bppMax : Nat := 8

/-- A threshold no legal BPP meets: above 8 means "never" (rule R185). -/
def never : FamilyThresholds := { vx1 := 9, vx2 := 9, va := 9 }

/-- The parameters that `State.reset` shows. DESIGN CHOICE (log entry 1): AW is the suggested 64 of
rule R10, the other three are one legal choice among those the spec leaves open. -/
def shownParams : Params :=
  { aw := 64, feat := 0,
    thr := { sub := never, up := never, avg := never, avgtop := never, paeth := never },
    strict := true }

/-! The free values: opaque, so nothing can be proved of them. The first argument is the number of the
draw (`State.draws`), so that each abort, completion and reset has values of its own (log entry 17). -/

/-- An unspecified byte of the buffer, by draw and address (rules R227, R252). -/
opaque freeByte : Nat → Nat → Byte

/-- An unspecified value of an AW-bit register, by draw and register; the register keeps the low AW bits. -/
opaque freeNat : Nat → Nat → Nat

/-- An unspecified value of `BPP` after the reset input (rule R250). -/
opaque freeBpp : Nat → Byte

/-- An unspecified pixel-group register, by draw and register (rules R195, R227, R250). -/
opaque freeGroup : Nat → Nat → Lanes Byte

/-- An unspecified `PHASE`. -/
opaque freePhase : Nat → Phase

/-- An unspecified `OP`. -/
opaque freeOp : Nat → Op

/-- An unspecified `PREV_VALID`. -/
opaque freeBit : Nat → Bool

/-- An unspecified field of `SEL`, by draw and operation (rules R37, R227). -/
opaque freeKernel : Nat → Filter → Kernel

end Config

end Sys2Proof
end

