-- ==== Sys2Proof/Syntax.lean ====
section
/-! DEFINITION. The instructions of PUE: one constructor for each row of `opcode_table.json` (rule R101). -/

namespace Sys2Proof

/-- An instruction. A row of the buffer is an instruction and its tag the opcode (rule R4); `start` is the
one operation the host issues (rule R180). A reserved row carries its whole tag, so that no bit of it is
lost (log entry 18); the other rows' tags are fixed. -/
inductive Instr where
  /-- `NONE`: tag 0, any row (rules R95, R96). -/
  | noneTag
  /-- `SUB`: tag 1, any row (rules R95, R96, R121). -/
  | sub
  /-- `UP`: tag 2, not in the first row (rules R95, R122). -/
  | up
  /-- `UP.F`: tag 2 in the first row, a no-op (rule R96). -/
  | upFirst
  /-- `AVG`: tag 3, not in the first row (rules R95, R123). -/
  | avg
  /-- `AVGTOP`: tag 3 in the first row (rules R96, R124). -/
  | avgTop
  /-- `PAETH`: tag 4, not in the first row (rules R95, R125). -/
  | paeth
  /-- `PAETH.F`: tag 4 in the first row, an alias of `SUB` (rule R96). -/
  | paethFirst
  /-- `RSVD.05`: the reserved tag 5 (rule R98). -/
  | rsvd05
  /-- `RSVD.06_07`: the reserved tags 6 and 7 (rule R98). -/
  | rsvd06to07 (tag : Byte)
  /-- `RSVD.08_0F`: the reserved tags 8 to 15 (rule R98). -/
  | rsvd08to0F (tag : Byte)
  /-- `RSVD.10_1F`: the reserved tags 16 to 31 (rule R98). -/
  | rsvd10to1F (tag : Byte)
  /-- `RSVD.20_3F`: the reserved tags 32 to 63 (rule R98). -/
  | rsvd20to3F (tag : Byte)
  /-- `RSVD.40_7F`: the reserved tags 64 to 127 (rule R98). -/
  | rsvd40to7F (tag : Byte)
  /-- `RSVD.80_FF`: the reserved tags 128 to 255 (rule R98). -/
  | rsvd80toFF (tag : Byte)
  /-- `START`: a write of 1 to `CTRL` bit 0 (rule R180). -/
  | start
  deriving DecidableEq, Repr

/-- Where an encoded byte stands, which the decode needs beside the byte: as the tag of the first row
(`FIRST` = 1, rule R96), as the tag of a later row (`FIRST` = 0, rule R95), or as data the host writes to
`CTRL` (rule R101: the `CTRL` row is no tag and takes no part in the tag decode). -/
inductive Space where
  | rowFirst
  | rowLater
  | ctrl
  deriving DecidableEq, Repr

end Sys2Proof
end

