-- ==== Sys2Proof/WellFormed.lean ====
section
/-! DEFINITION. When an instruction, and an instance's parameters, are well formed. -/

namespace Sys2Proof

/-- A tag matches a row of the table when `tag AND mask = match` (rule R101). -/
def tagMatches (mask pattern tag : Byte) : Bool := tag &&& mask == pattern

/-- A reserved row's tag lies in the row's range, by the table's match and mask (rule R101); the other
instructions carry nothing to check. -/
def Instr.wf : Instr → Bool
  | .noneTag => true
  | .sub => true
  | .up => true
  | .upFirst => true
  | .avg => true
  | .avgTop => true
  | .paeth => true
  | .paethFirst => true
  | .rsvd05 => true
  | .rsvd06to07 t => tagMatches 0xFE 0x06 t
  | .rsvd08to0F t => tagMatches 0xF8 0x08 t
  | .rsvd10to1F t => tagMatches 0xF0 0x10 t
  | .rsvd20to3F t => tagMatches 0xE0 0x20 t
  | .rsvd40to7F t => tagMatches 0xC0 0x40 t
  | .rsvd80toFF t => tagMatches 0x80 0x80 t
  | .start => true

/-- Legal parameters: `AW ≥ 8` (rule R10), and the x86 families and the ARM family never coexist
(rule R36). -/
def Params.wf (p : Params) : Bool :=
  decide (8 ≤ p.aw) && (!p.feat.getLsbD 2 || (!p.feat.getLsbD 0 && !p.feat.getLsbD 1))

end Sys2Proof
end

