-- ==== Sys2Proof/Decode.lean ====
section
/-! DEFINITION. The decoder (rules R95 to R98) and, after it, the encoder (rules R101 to R103). -/

namespace Sys2Proof

/-- Why a byte is no instruction. Only a `CTRL` write can be one: no tag is illegal (rule R98). -/
inductive DecodeReject where
  /-- Data written to `CTRL` with bit 0 clear: "Writing 0 … does nothing" (rule R38). -/
  | startBitClear
  deriving DecidableEq, Repr

/-- The reserved tags 5..255 by the table's seven match and mask rows (rule R101), lowest range first.
Every tag that reaches the last line has bit 7 set. -/
def decodeReserved (tag : Byte) : Instr :=
  if tag = 0x05 then .rsvd05
  else if tagMatches 0xFE 0x06 tag then .rsvd06to07 tag
  else if tagMatches 0xF8 0x08 tag then .rsvd08to0F tag
  else if tagMatches 0xF0 0x10 tag then .rsvd10to1F tag
  else if tagMatches 0xE0 0x20 tag then .rsvd20to3F tag
  else if tagMatches 0xC0 0x40 tag then .rsvd40to7F tag
  else .rsvd80toFF tag

/-- The tag decode, total on every (`FIRST`, tag) pair (rules R95, R96, R97). -/
def decodeRow (first : Bool) (tag : Byte) : Instr :=
  if tag = 0 then .noneTag
  else if tag = 1 then .sub
  else if tag = 2 then (if first then .upFirst else .up)
  else if tag = 3 then (if first then .avgTop else .avg)
  else if tag = 4 then (if first then .paethFirst else .paeth)
  else decodeReserved tag

/-- The decode of data written to `CTRL`: bit 0 set is `START`; the register has one bit, so the others
do not exist and are ignored (rules R38, R48, R180). -/
def decodeCtrl (data : Byte) : Except DecodeReject Instr :=
  if data.getLsbD 0 then .ok .start else .error .startBitClear

/-- Decode one byte in the place where it stands. -/
def decode (space : Space) (b : Byte) : Except DecodeReject Instr :=
  match space with
  | .rowFirst => .ok (decodeRow true b)
  | .rowLater => .ok (decodeRow false b)
  | .ctrl => decodeCtrl b

/-- The place a row's tag is decoded in, from the first-row flag (rule R28). -/
def rowSpace (first : Bool) : Space := if first then .rowFirst else .rowLater

/-- The operation of an instruction by the tables of rules R95 and R96; `START` is no row and has none. -/
def Instr.op : Instr → Option Op
  | .noneTag => some .nop
  | .sub => some .sub
  | .up => some .up
  | .upFirst => some .nop
  | .avg => some .avg
  | .avgTop => some .avgtop
  | .paeth => some .paeth
  | .paethFirst => some .sub
  | .rsvd05 => some .nop
  | .rsvd06to07 _ => some .nop
  | .rsvd08to0F _ => some .nop
  | .rsvd10to1F _ => some .nop
  | .rsvd20to3F _ => some .nop
  | .rsvd40to7F _ => some .nop
  | .rsvd80toFF _ => some .nop
  | .start => none

/-- The byte of an instruction: a row's tag (rules R102, R103), or 1 for the `CTRL` write (rule R180). -/
def encodeByte : Instr → Byte
  | .noneTag => 0
  | .sub => 1
  | .up => 2
  | .upFirst => 2
  | .avg => 3
  | .avgTop => 3
  | .paeth => 4
  | .paethFirst => 4
  | .rsvd05 => 5
  | .rsvd06to07 t => t
  | .rsvd08to0F t => t
  | .rsvd10to1F t => t
  | .rsvd20to3F t => t
  | .rsvd40to7F t => t
  | .rsvd80toFF t => t
  | .start => 1

/-- The places an instruction's byte may stand in: the `first` column of the table (rule R101: `1`, `0`
or `x` for either). -/
def encodeSpaces : Instr → List Space
  | .noneTag => [.rowFirst, .rowLater]
  | .sub => [.rowFirst, .rowLater]
  | .up => [.rowLater]
  | .upFirst => [.rowFirst]
  | .avg => [.rowLater]
  | .avgTop => [.rowFirst]
  | .paeth => [.rowLater]
  | .paethFirst => [.rowFirst]
  | .rsvd05 => [.rowFirst, .rowLater]
  | .rsvd06to07 _ => [.rowFirst, .rowLater]
  | .rsvd08to0F _ => [.rowFirst, .rowLater]
  | .rsvd10to1F _ => [.rowFirst, .rowLater]
  | .rsvd20to3F _ => [.rowFirst, .rowLater]
  | .rsvd40to7F _ => [.rowFirst, .rowLater]
  | .rsvd80toFF _ => [.rowFirst, .rowLater]
  | .start => [.ctrl]

/-- The encoder: every (place, byte) pair that stands for a well-formed instruction. -/
def encode (i : Instr) : List (Space × Byte) := (encodeSpaces i).map fun sp => (sp, encodeByte i)

/-- The place and the byte that a table word stands for (log entry 19). The table gives a row 8 bits, the
tag; what the decode needs beside the tag is no byte of the buffer, so it is numbered above the table's
bits: bit 8 is the first-row flag and bit 9 says that the byte is data for `CTRL`. Bits at or above
`nbits` are 0. -/
def tableWord (nbits w : Nat) : Space × Byte :=
  let v := w % 2 ^ nbits
  let space := if v.testBit 9 then .ctrl else if v.testBit 8 then .rowFirst else .rowLater
  (space, BitVec.ofNat 8 v)

/-- The instruction the decoder reads from a table word (none where it refuses). -/
def decodeTableWord (nbits w : Nat) : Option Instr :=
  match decode (tableWord nbits w).1 (tableWord nbits w).2 with
  | .ok i => some i
  | .error _ => none

end Sys2Proof
end

