-- ==== Sys2Proof/Machine/State.lean ====
section
/-! DEFINITION. The state of PUE (rules R20 to R48), of its memory and of the host's side, as plain data; the
ways a step can stop; the state after reset (rules R47, R250). -/

namespace Sys2Proof.Machine

/-- `STATUS.STATE` (rule R39): 0 IDLE, 1 BUSY, 2 DONE, 3 ABORTED. -/
inductive CallState where
  | idle
  | busy
  | done
  | aborted
  deriving DecidableEq, Repr

/-- The cause codes of an abort (rule R220). Code 6 is reserved and never produced (rule R228), and so are
7..255. -/
inductive Cause where
  | bppTooLarge
  | bppZero
  | rowlenZero
  | addrRange
  | lenNotMultiple
  deriving DecidableEq, Repr

/-- The control registers `CR0` to `CR9` (rule R48), the only ones PUE has. -/
inductive CReg where
  | base
  | nrows
  | rowlen
  | bpp
  | ctrl
  | status
  | cause
  | feat
  | sel
  | cfg
  deriving DecidableEq, Repr

/-- `SEL` (rules R37, R48): one field for each operation. -/
structure Sel where
  sub    : Kernel
  up     : Kernel
  avg    : Kernel
  avgtop : Kernel
  paeth  : Kernel
  deriving DecidableEq, Repr

/-- Which configuration registers were written since the last reset (rule R253, log entry 4). -/
structure Written where
  base   : Bool
  nrows  : Bool
  rowlen : Bool
  bpp    : Bool
  deriving DecidableEq, Repr

/-- Memory: the bytes that differ from the background, addresses strictly rising (log entry 5). The form is
`Memory.wf`; every memory operation keeps it. -/
abbrev Memory := List Host.Cell

/-- One move of the host (rule R257), or of whoever drives the reset input (rule R250). The list of them
in State is the model's own: it says which agent moves next (log entry 8). -/
inductive HostCmd where
  /-- Write `v` to a control register; bits above the register's width are ignored (rule R48). -/
  | writeReg (r : CReg) (v : Nat)
  /-- Read a control register (rule R42: always allowed, no side effect). -/
  | readReg (r : CReg)
  /-- Write a byte of memory (rules R254(a), R257 "finish"). -/
  | writeMem (addr : Nat) (v : Byte)
  /-- Read a byte of memory. -/
  | readMem (addr : Nat)
  /-- Assert the reset input (rule R250). -/
  | reset
  /-- The host makes no move in this step: PUE has it. -/
  | pause
  deriving DecidableEq, Repr

/-- Where the machine stops with a fault. -/
inductive Fault where
  /-- Raised by a host read or write of a byte at or above `2^AW`: the address space is AW bits wide and no
  such byte exists (rule R44, log entry 14). Safe. PUE itself never raises it. -/
  | noSuchAddress
  deriving DecidableEq, Repr

/-- Where the spec gives no meaning, so the model gives none. -/
inductive Refusal where
  /-- Raised by `exec`'s arm of an instruction without a meaning; no arm of this model does. Safe. -/
  | notModelled (mnemonic : String)
  /-- Raised by `START` when a configuration register was never written since reset: "the model
  *refuses* the call (gives it no meaning)" (rule R253). Safe. -/
  | configUnwritten
  /-- Raised by `START` when `STRICT = 0`, there are rows and the payload length is no multiple of `BPP`:
  "a model must *refuse* the call" (rule R225(b), U2). Safe. -/
  | lengthNotMultiple
  /-- Raised by a host read or write of a byte of the buffer while `BUSY`: "the model gives such an access
  no meaning" (rules R70, R256, U20). Safe. -/
  | bufferOwnedByPue
  deriving DecidableEq, Repr

/-- The whole state. A register of AW bits is a natural number below `2^AW` (log entry 2). -/
structure State where
  /-- The instance's constants `AW`, `FEAT`, `THR`, `STRICT` (rule R10); no step writes them. -/
  params : Params
  /-- `BASE`, CR0 (rule R31). -/
  base : Nat
  /-- `NROWS`, CR1 (rule R32). -/
  nrows : Nat
  /-- `ROWLEN`, CR2 (rule R33). -/
  rowlen : Nat
  /-- `BPP`, CR3 (rule R34). -/
  bpp : Byte
  /-- Which of the four were written since reset (rule R253). -/
  written : Written
  /-- `STATUS.STATE`, CR5 (rule R39). -/
  status : CallState
  /-- `CAUSE`, CR6 (rule R40). -/
  cause : Byte
  /-- `SEL`, CR8 (rule R37). -/
  sel : Sel
  /-- `ROW`, the program counter (rule R24). -/
  row : Nat
  /-- `GRP` (rule R25). -/
  grp : Nat
  /-- `PHASE` (rule R26). -/
  phase : Phase
  /-- `OP` (rule R27). -/
  op : Op
  /-- `PREV` (rule R29). -/
  prev : Nat
  /-- `PREV_VALID` (rule R29). -/
  prevValid : Bool
  /-- `A`, the left group (rule R21). -/
  a : Lanes Byte
  /-- `B`, the group above (rule R21). -/
  b : Lanes Byte
  /-- `C`, the group above-left (rule R21). -/
  c : Lanes Byte
  /-- `F`, the filtered group (rule R21). -/
  f : Lanes Byte
  /-- `X`, the reconstructed group (rule R21). -/
  x : Lanes Byte
  /-- The byte-addressed memory that holds the image buffer (rules R20(a), R44). -/
  mem : Memory
  /-- The host's moves still to come (the model's own, log entry 8). -/
  host : List HostCmd
  /-- What the host's last read returned (the model's own, log entry 16). -/
  readData : Nat
  /-- How many times free values were drawn (the model's own, log entry 17). -/
  draws : Nat
  deriving DecidableEq, Repr

/-- Every lane 0. -/
def zeroGroup : Lanes Byte := ⟨0, 0, 0, 0, 0, 0, 0, 0⟩

/-- Every operation on its scalar kernel (rule R183). -/
def Sel.allScalar : Sel := ⟨.scalar, .scalar, .scalar, .scalar, .scalar⟩

/-- No configuration register written yet (rule R253). -/
def Written.none : Written := ⟨false, false, false, false⟩

/-- An instance right after reset (rules R47, R250): `IDLE`, no cause, nothing written. A register for which
rule R47 says "unspecified" holds the named value 0 (DESIGN CHOICE, log entry 3); memory lists
nothing, and the host has no move yet. -/
def State.resetOf (p : Params) : State :=
  { params := p, base := 0, nrows := 0, rowlen := 0, bpp := 0, written := Written.none,
    status := .idle, cause := 0, sel := Sel.allScalar,
    row := 0, grp := 0, phase := .fetch, op := .nop, prev := 0, prevValid := false,
    a := zeroGroup, b := zeroGroup, c := zeroGroup, f := zeroGroup, x := zeroGroup,
    mem := [], host := [], readData := 0, draws := 0 }

/-- The machine right after reset, shown for one choice of the open parameters (log entry 1). -/
def State.reset : State := State.resetOf Config.shownParams

end Sys2Proof.Machine
end

