-- ==== Sys2Proof/Machine/Ops.lean ====
section
/-! DEFINITION. The named operations over memory and registers (20_memory.md, 10_state.md), taking the abort
(rules R226, R227), and the ends of a call. -/

namespace Sys2Proof.Machine

/-! Memory -/

/-- What a byte of memory that nothing has written reads as. DESIGN CHOICE (log entry 5): the spec
gives memory no power-on contents. -/
def Memory.background : Byte := 0

/-- The byte at an address: the last value written there, else the background (rule R68). -/
def Memory.read : Memory → Nat → Byte
  | [], _ => Memory.background
  | (k, v) :: m, addr => if k = addr then v else Memory.read m addr

/-- Put a byte at an address and change no other (rule R68). Writing the background removes the entry, so
that the canonical form is kept. -/
def Memory.write : Memory → Nat → Byte → Memory
  | [], addr, v => if v = Memory.background then [] else [(addr, v)]
  | (k, w) :: m, addr, v =>
    if addr < k then (if v = Memory.background then (k, w) :: m else (addr, v) :: (k, w) :: m)
    else if addr = k then (if v = Memory.background then m else (addr, v) :: m)
    else (k, w) :: Memory.write m addr v

/-- The canonical form: addresses strictly rising, no entry equal to the background. -/
def Memory.wf : Memory → Bool
  | [] => true
  | [(_, v)] => v != Memory.background
  | (k, v) :: (k', v') :: m => v != Memory.background && decide (k < k') && Memory.wf ((k', v') :: m)

/-- Every listed address is below `n`. -/
def Memory.below (n : Nat) : Memory → Bool
  | [] => true
  | (k, _) :: m => decide (k < n) && Memory.below n m

/-- Make the `len` bytes from `lo` free values of draw `d` ("any value", rules R227, R252). -/
def Memory.forget (d lo : Nat) : Nat → Memory → Memory
  | 0, m => m
  | len + 1, m => (Memory.forget d lo len m).write (lo + len) (Config.freeByte d (lo + len))

/-! Addresses: AW-bit unsigned arithmetic (rule R202) -/

/-- The low AW bits of a value. -/
def State.wrap (s : State) (n : Nat) : Nat := n % 2 ^ s.params.aw

/-- `n`, the payload bytes of a row (rule R14). -/
def State.payloadLen (s : State) : Nat := s.rowlen - 1

/-- `G`, the pixel groups of a row (rules R14, R191). -/
def State.groups (s : State) : Nat := (s.rowlen - 1) / s.bpp.toNat

/-- `TagAddr(ROW)` (rules R14, R202). -/
def State.tagAddr (s : State) : Nat := s.wrap (s.base + s.row * s.rowlen)

/-- `PayAddr(ROW)` (rule R14). -/
def State.payAddr (s : State) : Nat := s.wrap (s.base + s.row * s.rowlen + 1)

/-- Read one byte of memory. -/
def State.readByte (s : State) (addr : Nat) : Byte := s.mem.read (s.wrap addr)

/-- Write one byte of memory. -/
def State.writeByte (s : State) (addr : Nat) (v : Byte) : State :=
  { s with mem := s.mem.write (s.wrap addr) v }

/-- An address lies in the image buffer `[BASE, BASE + NROWS·ROWLEN)` (rule R60). -/
def State.inBuffer (s : State) (addr : Nat) : Bool :=
  decide (s.base ≤ addr) && decide (addr < s.base + s.nrows * s.rowlen)

/-- The length of the buffer clipped to the address space (rule R227). -/
def State.clippedLen (s : State) : Nat :=
  min (s.base + s.nrows * s.rowlen) (2 ^ s.params.aw) - s.base

/-! Control registers -/

/-- The two-bit code of a `SEL` field (rule R37). -/
def kernelCode : Kernel → Nat
  | .scalar => 0
  | .vx1 => 1
  | .vx2 => 2
  | .va => 3

/-- The field of `SEL` of an operation (rule R37). -/
def Sel.get (s : Sel) : Filter → Kernel
  | .sub => s.sub
  | .up => s.up
  | .avg => s.avg
  | .avgtop => s.avgtop
  | .paeth => s.paeth

/-- `SEL` from its five fields. -/
def Sel.ofFn (k : Filter → Kernel) : Sel :=
  { sub := k .sub, up := k .up, avg := k .avg, avgtop := k .avgtop, paeth := k .paeth }

/-- The ten bits of `SEL`: `[1:0]` SUB, `[3:2]` UP, `[5:4]` AVG, `[7:6]` AVGTOP, `[9:8]` PAETH (rule R48). -/
def Sel.bits (s : Sel) : Nat :=
  kernelCode s.sub + 4 * kernelCode s.up + 16 * kernelCode s.avg + 64 * kernelCode s.avgtop
    + 256 * kernelCode s.paeth

/-- The code of `STATUS.STATE` (rule R48). -/
def statusCode : CallState → Nat
  | .idle => 0
  | .busy => 1
  | .done => 2
  | .aborted => 3

/-- The code of a cause (rule R220). -/
def causeCode : Cause → Byte
  | .bppTooLarge => 1
  | .bppZero => 2
  | .rowlenZero => 3
  | .addrRange => 4
  | .lenNotMultiple => 5

/-- Read a control register (rules R42, R48): `CTRL` reads 0, bits above a register's width read 0. -/
def State.readReg (s : State) : CReg → Nat
  | .base => s.base
  | .nrows => s.nrows
  | .rowlen => s.rowlen
  | .bpp => s.bpp.toNat
  | .ctrl => 0
  | .status => statusCode s.status
  | .cause => s.cause.toNat
  | .feat => s.params.feat.toNat
  | .sel => s.sel.bits
  | .cfg => if s.params.strict then 1 else 0

/-- Write a configuration register (rules R31 to R34): dropped while `BUSY` (rule R42); bits above the width
are ignored, and a write to a read-only register does nothing (rule R48). A `CTRL` write is no
configuration write: see `START` (rule R38). -/
def State.writeConfig (s : State) (r : CReg) (v : Nat) : State :=
  if s.status = .busy then s
  else match r with
    | .base => { s with base := s.wrap v, written := { s.written with base := true } }
    | .nrows => { s with nrows := s.wrap v, written := { s.written with nrows := true } }
    | .rowlen => { s with rowlen := s.wrap v, written := { s.written with rowlen := true } }
    | .bpp => { s with bpp := BitVec.ofNat 8 v, written := { s.written with bpp := true } }
    | .ctrl => s
    | .status => s
    | .cause => s
    | .feat => s
    | .sel => s
    | .cfg => s

/-- All four configuration registers written since reset (premise `P_CONFIG` of rule R255). -/
def Written.all (w : Written) : Bool := w.base && w.nrows && w.rowlen && w.bpp

/-! Unspecified registers -/

/-- Give the sequencer and pixel-group registers free values and count the draw: what rules R195 and U25
(after `DONE`), R227 (after an abort) and R250 (after the reset input) leave of them. -/
def State.forgetInternals (s : State) : State :=
  { s with
    row := s.wrap (Config.freeNat s.draws 0), grp := s.wrap (Config.freeNat s.draws 1),
    prev := s.wrap (Config.freeNat s.draws 2), phase := Config.freePhase s.draws,
    op := Config.freeOp s.draws, prevValid := Config.freeBit s.draws,
    a := Config.freeGroup s.draws 0, b := Config.freeGroup s.draws 1,
    c := Config.freeGroup s.draws 2, f := Config.freeGroup s.draws 3,
    x := Config.freeGroup s.draws 4, draws := s.draws + 1 }

/-- `SEL` unspecified (rules R37, R227, R250). -/
def State.forgetSel (s : State) : State := { s with sel := Sel.ofFn (Config.freeKernel s.draws) }

/-- Every byte of the buffer unspecified, no other byte changed (rules R227, R252). -/
def State.forgetBuffer (s : State) : State :=
  { s with mem := s.mem.forget s.draws s.base s.clippedLen }

/-! The ends of a call -/

/-- `raise Abort(cause)`, the one exception (rules R220, R226, R233): `CAUSE` and `STATE` are written and
the call is over; the buffer, `SEL` and the internal registers become unspecified (rule R227). No handler
runs, nothing is saved and there is no return (rule R234): a later `START` is a new call. -/
def State.raiseAbort (s : State) (cause : Cause) : State :=
  { s.forgetBuffer.forgetSel.forgetInternals with cause := causeCode cause, status := .aborted }

/-- `STATE <- DONE` (rules R181, R195); the internal registers are left with values no rule reads and no
proof may assume (U25, log entry 10). -/
def State.complete (s : State) : State := { s.forgetInternals with status := .done }

/-- The reset input (rules R250 to R252): the status registers are cleared, every other register is
unspecified (free values, log entry 11), the constants stay; memory is untouched unless a call was running,
whose buffer is then unspecified. -/
def State.resetInput (s : State) : State :=
  { s.forgetSel.forgetInternals with
    mem := if s.status = .busy then s.forgetBuffer.mem else s.mem,
    base := s.wrap (Config.freeNat s.draws 3), nrows := s.wrap (Config.freeNat s.draws 4),
    rowlen := s.wrap (Config.freeNat s.draws 5), bpp := Config.freeBpp s.draws,
    written := Written.none, status := .idle, cause := 0 }

end Sys2Proof.Machine
end

