-- ==== Sys2Proof/Machine/Operands.lean ====
section
/-! DEFINITION. The operand forms: lanes of a pixel group, the effective addresses of rule R202, the group load
and store (rules R152, R153) and the neighbour groups (rules R93, R94). -/

namespace Sys2Proof

/-! Lanes (rules R21, R155: no operation crosses lanes) -/

/-- The lane indices in rising order. -/
def laneIndices : List (Fin 8) := [0, 1, 2, 3, 4, 5, 6, 7]

/-- `R[k]` (rule R13). -/
def Lanes.get {α : Type} (r : Lanes α) : Fin 8 → α
  | ⟨0, _⟩ => r.l0
  | ⟨1, _⟩ => r.l1
  | ⟨2, _⟩ => r.l2
  | ⟨3, _⟩ => r.l3
  | ⟨4, _⟩ => r.l4
  | ⟨5, _⟩ => r.l5
  | ⟨6, _⟩ => r.l6
  | ⟨7, _⟩ => r.l7

/-- The group whose lane `k` is `g k`. -/
def Lanes.ofFn {α : Type} (g : Fin 8 → α) : Lanes α :=
  ⟨g 0, g 1, g 2, g 3, g 4, g 5, g 6, g 7⟩

/-- A lane operation with one operand (rule R155). -/
def Lanes.map {α β : Type} (g : α → β) (r : Lanes α) : Lanes β := Lanes.ofFn fun k => g (r.get k)

/-- A lane operation with two operands (rule R155). -/
def Lanes.zip {α β γ : Type} (g : α → β → γ) (r : Lanes α) (t : Lanes β) : Lanes γ :=
  Lanes.ofFn fun k => g (r.get k) (t.get k)

namespace Machine

/-- The operation a row's `OP` runs; `NOP` runs none (rules R27, R193). -/
def filterOf : Op → Option Filter
  | .nop => none
  | .sub => some .sub
  | .up => some .up
  | .avg => some .avg
  | .avgtop => some .avgtop
  | .paeth => some .paeth

/-- The operations that read the previous row: `OP in {UP, AVG, PAETH}` (rule R192). -/
def readsAbove : Filter → Bool
  | .sub => false
  | .up => true
  | .avg => true
  | .avgtop => false
  | .paeth => true

/-- `GrpAddr(ROW, GRP)`: the current group's load and store address (rules R14, R202). -/
def State.grpAddr (s : State) : Nat :=
  s.wrap (s.base + s.row * s.rowlen + 1 + s.grp * s.bpp.toNat)

/-- `PREV + GRP·BPP`: the above group's load address (rule R202). -/
def State.aboveAddr (s : State) : Nat := s.wrap (s.prev + s.grp * s.bpp.toNat)

/-- `VLoad(addr, BPP)`: lane `k` is the byte at `addr + k`, lanes at or above `BPP` are 0 (rule R152). -/
def State.loadGroup (s : State) (addr : Nat) : Lanes Byte :=
  Lanes.ofFn fun k => if k.val < s.bpp.toNat then s.readByte (addr + k.val) else 0

/-- Store the lanes of `ks` that lie below `n`, lane `k` at `addrOf k`. -/
def Memory.storeLanes (addrOf : Nat → Nat) (n : Nat) (r : Lanes Byte) : List (Fin 8) → Memory → Memory
  | [], m => m
  | k :: ks, m =>
    Memory.storeLanes addrOf n r ks (if k.val < n then m.write (addrOf k.val) (r.get k) else m)

/-- `VStore(addr, BPP, R)`: exactly the lanes below `BPP` are stored (rule R153). -/
def State.storeGroup (s : State) (addr : Nat) (r : Lanes Byte) : State :=
  { s with mem := Memory.storeLanes (fun k => s.wrap (addr + k)) s.bpp.toNat r laneIndices s.mem }

end Machine

end Sys2Proof
end

