-- ==== Sys2Proof/Machine/Flags.lean ====
section
/-! DEFINITION. What PUE has of flags: no condition codes (rule R30); the first-row flag (rule R28); and the lane
masks of the Paeth comparisons, made and used inside one operation (rules R125, R155). -/

namespace Sys2Proof.Machine

/-- `FIRST` (rule R28): the Boolean `ROW = 0`, not stored. -/
def State.first (s : State) : Bool := decide (s.row = 0)

/-- The first Paeth test, choose `a`: `pa ≤ pb` and `pa ≤ pc` (rule R125). -/
def chooseLeft (pa pb pc : Nat) : Bool := decide (pa ≤ pb) && decide (pa ≤ pc)

/-- The second Paeth test, else choose `b`: `pb ≤ pc` (rule R125). -/
def chooseAbove (pb pc : Nat) : Bool := decide (pb ≤ pc)

/-- `le16(V, W)`: the lane mask of the signed 16-bit compare `V[k] ≤ W[k]` (rule R155). -/
def le16 (v w : Lanes Half) : Lanes Bool := Lanes.zip (fun x y => x.sle y) v w

/-- `and(m, q)`: the lane-wise Boolean and of two masks (rule R155). -/
def andMask (m q : Lanes Bool) : Lanes Bool := Lanes.zip (fun x y => x && y) m q

/-- `sel(m, R, S)`: `R[k]` where `m[k]` is true, else `S[k]` (rules R13, R155). -/
def selLanes (m : Lanes Bool) (r t : Lanes Byte) : Lanes Byte :=
  Lanes.ofFn fun k => if m.get k then r.get k else t.get k

end Sys2Proof.Machine
end

