-- ==== Sys2Proof/Machine/Scalar.lean ====
section
/-! DEFINITION. The scalar kernel set (41_scalar_kernels.md) and its whole-row form (rule R133). -/

namespace Sys2Proof.Machine

/-- The floor of the mean of two bytes, from a sum that does not wrap (rules R123, R128). -/
def avgFloor (a b : Byte) : Byte := BitVec.ofNat 8 ((a.toNat + b.toNat) / 2)

/-- The Paeth predictor (rule R125): the distances of `p = a + b - c` to `a`, `b` and `c`, over the integers
(rule R127), and the tie-break left, above, above-left. -/
def paethPredictor (a b c : Byte) : Byte :=
  let p : Int := (a.toNat : Int) + b.toNat - c.toNat
  let pa := (p - a.toNat).natAbs
  let pb := (p - b.toNat).natAbs
  let pc := (p - c.toNat).natAbs
  if chooseLeft pa pb pc then a else if chooseAbove pb pc then b else c

/-- `Pred(op, a, b, c)` (rule R133). -/
def predictor : Filter → Byte → Byte → Byte → Byte
  | .sub, a, _, _ => a
  | .up, _, b, _ => b
  | .avg, a, b, _ => avgFloor a b
  | .avgtop, a, _, _ => a >>> 1
  | .paeth, a, b, c => paethPredictor a b c

/-- A scalar kernel on one group (rules R121 to R125): `X[k] <- F[k] +8 pred` for the lanes below `BPP`; the
other lanes are written 0 (rule R21). -/
def scalarKernel (op : Filter) (bpp : Nat) (f a b c : Lanes Byte) : Lanes Byte :=
  Lanes.ofFn fun k =>
    if k.val < bpp then f.get k + predictor op (a.get k) (b.get k) (c.get k) else 0

/-- Byte `j` of the reconstructed row, from the bytes `xs` of the row reconstructed so far (rule R133). -/
def rowByte (op : Filter) (bpp : Nat) (filt prev xs : List Byte) (j : Nat) : Byte :=
  let a := if bpp ≤ j then xs.getD (j - bpp) 0 else 0
  let b := if readsAbove op then prev.getD j 0 else 0
  let c := if op = .paeth ∧ bpp ≤ j then prev.getD (j - bpp) 0 else 0
  filt.getD j 0 + predictor op a b c

/-- The first `n` bytes of the reconstructed row, in increasing `j` (rule R133). -/
def rowPrefix (op : Filter) (bpp : Nat) (filt prev : List Byte) : Nat → List Byte
  | 0 => []
  | n + 1 =>
    let xs := rowPrefix op bpp filt prev n
    xs ++ [rowByte op bpp filt prev xs n]

/-- `RowKernel(op, filt, prev, BPP)`: the effect of a kernel on a whole row (rules R133, R134). -/
def rowKernel (op : Filter) (bpp : Nat) (filt prev : List Byte) : List Byte :=
  rowPrefix op bpp filt prev filt.length

end Sys2Proof.Machine
end

