-- ==== Sys2Proof/Machine/Vector.lean ====
section
/-! DEFINITION. The vector kernels, lane by lane (42_vector_kernels.md); one set of lane rules for the three
families (rule R150). -/

namespace Sys2Proof.Machine

/-! Lane operations (rules R154, R155) -/

/-- `widen(R)`: `zext_16` of each lane (rule R154). -/
def widen (r : Lanes Byte) : Lanes Half := r.map fun (v : Byte) => v.setWidth 16

/-- `narrow(W)`: the low 8 bits of each lane (rule R154). -/
def narrow (w : Lanes Half) : Lanes Byte := w.map fun (v : Half) => v.setWidth 8

/-- `add8(R, S)`: the wrapping add (rule R155). -/
def add8 (r t : Lanes Byte) : Lanes Byte := Lanes.zip (fun x y => x + y) r t

/-- `shr8(R)`: the logical shift right by one (rule R155). -/
def shr8 (r : Lanes Byte) : Lanes Byte := r.map fun (v : Byte) => v >>> 1

/-- `add16(V, W)` (rule R155). -/
def add16 (v w : Lanes Half) : Lanes Half := Lanes.zip (fun x y => x + y) v w

/-- `sub16(V, W)` (rule R155). -/
def sub16 (v w : Lanes Half) : Lanes Half := Lanes.zip (fun x y => x - y) v w

/-- `abs16(V)` (rule R155). -/
def abs16 (v : Lanes Half) : Lanes Half := v.map fun (x : Half) => if x.msb then -x else x

/-- `shr16(V)`: the logical shift right by one (rule R155). -/
def shr16 (v : Lanes Half) : Lanes Half := v.map fun (x : Half) => x >>> 1

/-! The five operations (rules R156 to R160) -/

/-- `V.SUB` (rule R156). -/
def vSub (f a : Lanes Byte) : Lanes Byte := add8 f a

/-- `V.UP` (rule R157). -/
def vUp (f b : Lanes Byte) : Lanes Byte := add8 f b

/-- `V.AVG` (rule R158). -/
def vAvg (f a b : Lanes Byte) : Lanes Byte :=
  let s := add16 (widen a) (widen b)
  let m := narrow (shr16 s)
  add8 f m

/-- `V.AVGTOP` (rule R159). -/
def vAvgTop (f a : Lanes Byte) : Lanes Byte := add8 f (shr8 a)

/-- The chosen neighbour bytes of `V.PAETH` (rule R160). -/
def vPaethPredictor (a b c : Lanes Byte) : Lanes Byte :=
  let wa := widen a
  let wb := widen b
  let wc := widen c
  let p := sub16 (add16 wa wb) wc
  let pa := abs16 (sub16 p wa)
  let pb := abs16 (sub16 p wb)
  let pc := abs16 (sub16 p wc)
  let m1 := andMask (le16 pa pb) (le16 pa pc)
  let m2 := le16 pb pc
  selLanes m1 a (selLanes m2 b c)

/-- `V.PAETH` (rule R160). -/
def vPaeth (f a b c : Lanes Byte) : Lanes Byte := add8 f (vPaethPredictor a b c)

/-- The vector kernel of an operation, the same for every family (rule R150). -/
def vectorKernel : Filter → Lanes Byte → Lanes Byte → Lanes Byte → Lanes Byte → Lanes Byte
  | .sub, f, a, _, _ => vSub f a
  | .up, f, _, b, _ => vUp f b
  | .avg, f, a, b, _ => vAvg f a b
  | .avgtop, f, a, _, _ => vAvgTop f a
  | .paeth, f, a, b, c => vPaeth f a b c

end Sys2Proof.Machine
end

