-- ==== Sys2Proof/Machine/Select.lean ====
section
/-! DEFINITION. Kernel selection (rules R183 to R187) and the kernel a group step runs (rules R187, R192). -/

namespace Sys2Proof.Machine

/-- `THR[op]` (rule R10). -/
def thresholdsOf (t : Thresholds) : Filter → FamilyThresholds
  | .sub => t.sub
  | .up => t.up
  | .avg => t.avg
  | .avgtop => t.avgtop
  | .paeth => t.paeth

/-- `Select(BPP)[op]` (rule R186): SCALAR by default (rule R183), overridden by a family that is present and
whose threshold `BPP` meets (rule R185), the higher x86 level last. -/
def selectKernel (p : Params) (bpp : Nat) (op : Filter) : Kernel :=
  let t := thresholdsOf p.thr op
  let s0 : Kernel := .scalar
  let s1 : Kernel := if p.feat.getLsbD 0 ∧ t.vx1 ≤ bpp then .vx1 else s0
  let s2 : Kernel := if p.feat.getLsbD 1 ∧ t.vx2 ≤ bpp then .vx2 else s1
  if p.feat.getLsbD 2 ∧ t.va ≤ bpp then .va else s2

/-- `Select(BPP)`: each operation independently (rule R186). -/
def selectAll (p : Params) (bpp : Nat) : Sel := Sel.ofFn (selectKernel p bpp)

/-- `Kernel[OP][SEL[OP]]` (rules R187, R192): the scalar kernel or the vector one. -/
def runKernel (k : Kernel) (op : Filter) (bpp : Nat) (f a b c : Lanes Byte) : Lanes Byte :=
  match k with
  | .scalar => scalarKernel op bpp f a b c
  | .vx1 => vectorKernel op f a b c
  | .vx2 => vectorKernel op f a b c
  | .va => vectorKernel op f a b c

end Sys2Proof.Machine
end

