-- ==== Sys2Proof/Machine/Row.lean ====
section
/-! DEFINITION. The row loop (rules R188 to R195): the shared operations of a row, the micro-steps, and a whole
row run to its end. -/

namespace Sys2Proof.Machine

/-- `RowStart()` (rule R190). -/
def State.rowStart (s : State) : State := { s with a := zeroGroup, c := zeroGroup, grp := 0 }

/-- The part of the fetch step that follows the decode (rule R189): `OP`, the row-start action, `PHASE`. -/
def State.beginRow (s : State) (op : Op) : State := { s.rowStart with op := op, phase := .group }

/-- The `B` of a group step: the above group, or 0 where the operation reads no previous row (rule R192). -/
def State.aboveGroup (s : State) (op : Filter) : Lanes Byte :=
  if readsAbove op then s.loadGroup s.aboveAddr else zeroGroup

/-- The `X` of a group step (rule R192). -/
def State.reconstructed (s : State) (op : Filter) : Lanes Byte :=
  runKernel (s.sel.get op) op s.bpp.toNat (s.loadGroup s.grpAddr) s.a (s.aboveGroup op) s.c

/-- `GroupStep()` (rule R192): load `F` and `B`, compute `X`, store it, then `C <- B` and `A <- X`. -/
def State.groupStep (s : State) (op : Filter) : State :=
  let x := s.reconstructed op
  { s.storeGroup s.grpAddr x with
    f := s.loadGroup s.grpAddr, b := s.aboveGroup op, x := x, c := s.aboveGroup op, a := x }

/-- `GroupStep(); GRP <- GRP + 1` (rule R191). -/
def State.advanceGroup (s : State) (op : Filter) : State :=
  { s.groupStep op with grp := s.wrap (s.grp + 1) }

/-- The retire step (rule R194). -/
def State.retireRow (s : State) : State :=
  { s.writeByte s.tagAddr 0 with
    prev := s.payAddr, prevValid := true, row := s.wrap (s.row + 1), phase := .fetch }

/-! The micro-steps (rules R189, R191, R194) -/

/-- The group phase (rule R191). -/
def State.groupPhase (s : State) : State :=
  match filterOf s.op with
  | none => { s with phase := .retire }
  | some op => if s.grp = s.groups then { s with phase := .retire } else s.advanceGroup op

/-- The tag of the current row (rule R189: one byte, read once). -/
def State.fetchTag (s : State) : Byte := s.readByte s.tagAddr

/-- The instruction at the program counter: the current row's tag decoded with the first-row flag
(rules R28, R189). -/
def State.fetchInstr (s : State) : Instr := decodeRow s.first s.fetchTag

/-- The fetch step (rule R189), at the end of the buffer the completion (rule R195). Every tag has an operation
(rule R97), so the last line is never taken. -/
def State.fetchPhase (s : State) : State :=
  if s.row = s.nrows then s.complete
  else match s.fetchInstr.op with
    | some op => s.beginRow op
    | none => s

/-- One micro-step of PUE (rules R189 to R194); PUE moves only while `BUSY` (rule R17). -/
def State.microStep (s : State) : State :=
  if s.status = .busy then
    match s.phase with
    | .fetch => s.fetchPhase
    | .group => s.groupPhase
    | .retire => s.retireRow
  else s

/-- `n` micro-steps. -/
def State.microSteps : Nat → State → State
  | 0, s => s
  | n + 1, s => State.microSteps n s.microStep

/-! A whole row -/

/-- `n` group steps of one operation (rule R191). -/
def State.runGroups (op : Filter) : Nat → State → State
  | 0, s => s
  | n + 1, s => State.runGroups op n (s.advanceGroup op)

/-- How often `GRP` is counted up until it equals `G`, in AW-bit arithmetic (rule R191). -/
def State.groupsLeft (s : State) : Nat := s.wrap (s.groups + 2 ^ s.params.aw - s.grp)

/-- Run the row in progress to its end: the rest of its groups, unless it is a `NOP` row (rule R193), then
retire it. -/
def State.finishRow (s : State) : State :=
  match s.phase with
  | .fetch => s
  | .group =>
    match filterOf s.op with
    | none => s.retireRow
    | some op => (State.runGroups op s.groupsLeft s).retireRow
  | .retire => s.retireRow

/-- A whole row of operation `op`, from its fetch to its retirement (rule R188). -/
def State.runRow (s : State) (op : Op) : State := (s.beginRow op).finishRow

end Sys2Proof.Machine
end

