-- ==== Sys2Proof/Machine/FilterRows.lean ====
section
/-! DEFINITION. The rows that reconstruct (41_scalar_kernels.md, 42_vector_kernels.md): the row's groups left to
right by the kernel that `SEL` names, then the row is retired (rules R188, R192, R194). -/

namespace Sys2Proof.Machine

/-- `SUB` (rules R121, R156). -/
def execSub (s : State) : Host.Outcome State Fault Refusal := .next (s.runRow .sub)

/-- `UP` (rules R122, R157). -/
def execUp (s : State) : Host.Outcome State Fault Refusal := .next (s.runRow .up)

/-- `AVG` (rules R123, R158). -/
def execAvg (s : State) : Host.Outcome State Fault Refusal := .next (s.runRow .avg)

/-- `AVGTOP` (rules R124, R159). -/
def execAvgTop (s : State) : Host.Outcome State Fault Refusal := .next (s.runRow .avgtop)

/-- `PAETH` (rules R125, R160). -/
def execPaeth (s : State) : Host.Outcome State Fault Refusal := .next (s.runRow .paeth)

/-- `PAETH.F`, tag 4 in the first row: the alias of `SUB` (rules R96, R130). -/
def execPaethFirst (s : State) : Host.Outcome State Fault Refusal := .next (s.runRow .sub)

end Sys2Proof.Machine
end

