-- ==== Sys2Proof/Machine/NopRows.lean ====
section
/-! DEFINITION. The no-op rows (rule R193): the payload is left as found, and the row is still retired, its tag
forced to 0 and it becomes the previous row of the next (rules R99, R194). -/

namespace Sys2Proof.Machine

/-- `NONE`, tag 0 (rule R193). -/
def execNoneTag (s : State) : Host.Outcome State Fault Refusal := .next (s.runRow .nop)

/-- `UP.F`, tag 2 in the first row: with no row above, Up adds 0 (rule R132) (rule R193). -/
def execUpFirst (s : State) : Host.Outcome State Fault Refusal := .next (s.runRow .nop)

/-- `RSVD.05` (rules R98, R193). -/
def execRsvd05 (s : State) : Host.Outcome State Fault Refusal := .next (s.runRow .nop)

/-- `RSVD.06_07` (rules R98, R193). -/
def execRsvd06to07 (s : State) : Host.Outcome State Fault Refusal := .next (s.runRow .nop)

/-- `RSVD.08_0F` (rules R98, R193). -/
def execRsvd08to0F (s : State) : Host.Outcome State Fault Refusal := .next (s.runRow .nop)

/-- `RSVD.10_1F` (rules R98, R193). -/
def execRsvd10to1F (s : State) : Host.Outcome State Fault Refusal := .next (s.runRow .nop)

/-- `RSVD.20_3F` (rules R98, R193). -/
def execRsvd20to3F (s : State) : Host.Outcome State Fault Refusal := .next (s.runRow .nop)

/-- `RSVD.40_7F` (rules R98, R193). -/
def execRsvd40to7F (s : State) : Host.Outcome State Fault Refusal := .next (s.runRow .nop)

/-- `RSVD.80_FF` (rules R98, R193). -/
def execRsvd80toFF (s : State) : Host.Outcome State Fault Refusal := .next (s.runRow .nop)

end Sys2Proof.Machine
end

