-- ==== Sys2Proof/Machine/StartCall.lean ====
section
/-! DEFINITION. `START` (rules R180 to R182): the entry checks (rule R229) and the begin of a call. -/

namespace Sys2Proof.Machine

/-- `(ROWLEN - 1) mod BPP ≠ 0` (rule R225). -/
def State.lengthBad (s : State) : Bool := s.payloadLen % s.bpp.toNat != 0

/-- `EntryChecks()` (rule R229): the first check that applies, in the order of the codes. -/
def State.entryChecks (s : State) : Option Cause :=
  if 8 < s.bpp.toNat then some .bppTooLarge
  else if s.bpp.toNat = 0 then some .bppZero
  else if s.nrows = 0 then none
  else if s.rowlen = 0 then some .rowlenZero
  else if 2 ^ s.params.aw < s.base + s.nrows * s.rowlen then some .addrRange
  else if s.params.strict && s.lengthBad then some .lenNotMultiple
  else none

/-- The call that "a model must *refuse*" (rule R225(b)): rows present, a length that is no multiple of
`BPP`, and `STRICT = 0`. -/
def State.lengthUnspecified (s : State) : Bool :=
  decide (s.nrows ≠ 0) && !s.params.strict && s.lengthBad

/-- The entry sequence after the checks (rule R181), with the empty buffer of rule R182. -/
def State.beginCall (s : State) : State :=
  let s' := { s with cause := 0, sel := selectAll s.params s.bpp.toNat, row := 0, prevValid := false }
  if s.nrows = 0 then s'.complete else { s' with status := .busy, phase := .fetch }

/-- `START` (rule R180): ignored while `BUSY` (rule R38); refused where the spec gives the call no meaning
(rules R253, R225(b)); else the call aborts by a check or begins. -/
def execStart (s : State) : Host.Outcome State Fault Refusal :=
  if s.status = .busy then .next s
  else if s.written.all = false then .refused .configUnwritten
  else match s.entryChecks with
    | some cause => .next (s.raiseAbort cause)
    | none => if s.lengthUnspecified then .refused .lengthNotMultiple else .next s.beginCall

end Sys2Proof.Machine
end

