-- ==== Sys2Proof/Machine/Dispatch.lean ====
section
/-! DEFINITION. The dispatch of an instruction to its meaning: one arm for each constructor of `Instr`. -/

namespace Sys2Proof.Machine

def exec (i : Instr) (s : State) : Host.Outcome State Fault Refusal :=
  match i with
  | .noneTag => Sys2Proof.Machine.execNoneTag s
  | .sub => Sys2Proof.Machine.execSub s
  | .up => Sys2Proof.Machine.execUp s
  | .upFirst => Sys2Proof.Machine.execUpFirst s
  | .avg => Sys2Proof.Machine.execAvg s
  | .avgTop => Sys2Proof.Machine.execAvgTop s
  | .paeth => Sys2Proof.Machine.execPaeth s
  | .paethFirst => Sys2Proof.Machine.execPaethFirst s
  | .rsvd05 => Sys2Proof.Machine.execRsvd05 s
  | .rsvd06to07 _ => Sys2Proof.Machine.execRsvd06to07 s
  | .rsvd08to0F _ => Sys2Proof.Machine.execRsvd08to0F s
  | .rsvd10to1F _ => Sys2Proof.Machine.execRsvd10to1F s
  | .rsvd20to3F _ => Sys2Proof.Machine.execRsvd20to3F s
  | .rsvd40to7F _ => Sys2Proof.Machine.execRsvd40to7F s
  | .rsvd80toFF _ => Sys2Proof.Machine.execRsvd80toFF s
  | .start => Sys2Proof.Machine.execStart s

end Sys2Proof.Machine
end

