-- ==== Sys2Proof/Machine/HostPort.lean ====
section
/-! DEFINITION. The two agents' moves (rules R17, R257): what the host does to PUE and to memory, and what PUE
does when it has the move. -/

namespace Sys2Proof.Machine

/-- PUE's move: nothing unless `BUSY` (rule R17); at a fetch, the end of the call (rule R195) or the whole
row at the program counter; inside a row, the rest of that row (log entries 6 and 7). -/
def State.pueMove (s : State) : Host.Outcome State Fault Refusal :=
  if s.status = .busy then
    match s.phase with
    | .fetch => if s.row = s.nrows then .next s.complete else exec s.fetchInstr s
    | .group => .next s.finishRow
    | .retire => .next s.finishRow
  else .next s

/-- A host write of a control register (rules R38, R42, R48): data for `CTRL` is decoded, and `START` runs
if its bit is set; every other register is a configuration write. -/
def State.hostWriteReg (s : State) (r : CReg) (v : Nat) : Host.Outcome State Fault Refusal :=
  if r = .ctrl then
    match decodeCtrl (BitVec.ofNat 8 v) with
    | .ok i => exec i s
    | .error _ => .next s
  else .next (s.writeConfig r v)

/-- What a host access to the byte at `addr` meets: an address outside the AW-bit space does not exist, and
a byte of the buffer is PUE's alone while `BUSY` (rules R44, R70, R256); else `ok`. -/
def State.hostAccess (s : State) (addr : Nat) (ok : State) : Host.Outcome State Fault Refusal :=
  if 2 ^ s.params.aw ≤ addr then .fault .noSuchAddress
  else if s.status = .busy ∧ s.inBuffer addr then .refused .bufferOwnedByPue
  else .next ok

/-- One move of the host (rule R257); a pause leaves the move to PUE. -/
def State.hostMove (s : State) (c : HostCmd) : Host.Outcome State Fault Refusal :=
  match c with
  | .writeReg r v => s.hostWriteReg r v
  | .readReg r => .next { s with readData := s.readReg r }
  | .writeMem addr v => s.hostAccess addr { s with mem := s.mem.write addr v }
  | .readMem addr => s.hostAccess addr { s with readData := (s.mem.read addr).toNat }
  | .reset => .next s.resetInput
  | .pause => s.pueMove

/-! Putting an instruction where the next step runs it (log entry 19) -/

/-- A call in progress at the fetch step of a row: what the host's writes and an accepted `START` bring
about, for the row after the first if `first` is false. A call that is running keeps its geometry; else
the smallest one with a pixel group is installed: `BASE = 0`, `ROWLEN = 2`, `BPP = 1`. -/
def State.atRow (s : State) (first : Bool) : State :=
  let g := if s.status = .busy then s
    else { s with base := 0, rowlen := 2, bpp := 1, nrows := 2, written := ⟨true, true, true, true⟩,
                  cause := 0, sel := selectAll s.params 1 }
  { g with
    host := [], status := .busy, phase := .fetch, row := if first then 0 else 1,
    nrows := if first then max g.nrows 1 else max g.nrows 2,
    prev := if first then g.prev else g.wrap (g.base + 1), prevValid := !first }

/-- A host about to write the byte `b` to `CTRL`, every configuration register written: the smallest
legal call, not running. -/
def State.atCtrlWrite (s : State) (b : Byte) : State :=
  { s with
    host := [.writeReg .ctrl b.toNat], base := 0, rowlen := 2, bpp := 1, nrows := 1,
    written := ⟨true, true, true, true⟩, status := .idle, cause := 0 }

/-- Place an encoded instruction where the next step fetches and runs it. -/
def State.place (s : State) (space : Space) (b : Byte) : State :=
  match space with
  | .rowFirst => let s' := s.atRow true; s'.writeByte s'.tagAddr b
  | .rowLater => let s' := s.atRow false; s'.writeByte s'.tagAddr b
  | .ctrl => s.atCtrlWrite b

end Sys2Proof.Machine
end

