-- ==== Sys2Proof/Machine/Step.lean ====
section
/-! DEFINITION. One step of the machine, and placing an instruction where it runs next. -/

namespace Sys2Proof.Machine

/-- One step: the next host command, if there is one, else PUE's move (rule R17, log entry 8). -/
def step (s : State) : Host.Outcome State Fault Refusal :=
  match s.host with
  | [] => s.pueMove
  | c :: rest => { s with host := rest }.hostMove c

/-- `s` with the instruction of a table word placed where `step` runs it next (log entry 19). -/
def State.withFetchWord (s : State) (nbits w : Nat) : State :=
  s.place (tableWord nbits w).1 (tableWord nbits w).2

end Sys2Proof.Machine
end

