-- ==== Sys2Proof/Machine/Unfilter.lean ====
section
/-! DEFINITION. The one-function form of a call (rule R198), over memory alone. -/

namespace Sys2Proof.Machine

/-- The `n` bytes at `addr` (`MemRead`, rule R13). -/
def Memory.readBytes (m : Memory) (addr n : Nat) : List Byte :=
  (List.range n).map fun j => m.read (addr + j)

/-- Write a list of bytes at `addr` (`MemWrite`, rule R13). -/
def Memory.writeBytes (addr : Nat) : List Byte → Memory → Memory
  | [], m => m
  | v :: vs, m => Memory.writeBytes (addr + 1) vs (m.write addr v)

/-- The payload of a row after its operation (rule R198): `RowKernel`, with zeros above the first row. -/
def unfilterPayload (m : Memory) (base rowlen bpp i : Nat) (op : Filter) : List Byte :=
  let n := rowlen - 1
  let filt := m.readBytes (base + i * rowlen + 1) n
  let prev := if 0 < i then m.readBytes (base + (i - 1) * rowlen + 1) n else List.replicate n 0
  rowKernel op bpp filt prev

/-- One row of `Unfilter` (rule R198). -/
def unfilterRow (base rowlen bpp i : Nat) (m : Memory) : Memory :=
  let tag := m.read (base + i * rowlen)
  let m' :=
    match (decodeRow (decide (i = 0)) tag).op.bind filterOf with
    | none => m
    | some op =>
      Memory.writeBytes (base + i * rowlen + 1) (unfilterPayload m base rowlen bpp i op) m
  m'.write (base + i * rowlen) 0

/-- The first `n` rows of `Unfilter(mem, BASE, N, L, BPP)`, in increasing order (rule R198). -/
def unfilter (base rowlen bpp : Nat) : Nat → Memory → Memory
  | 0, m => m
  | n + 1, m => unfilterRow base rowlen bpp n (unfilter base rowlen bpp n m)

end Sys2Proof.Machine
end

