-- ==== Sys2Proof/Safety.lean ====
section
/-! DEFINITION. The terms the statements use: the launch premises (rule R255), a row ready to run, what a row
leaves behind, the frame of the control registers, and the invariant of the machine. -/

namespace Sys2Proof.Machine

/-- `TagAddr(i) = BASE + i·L` without wrap (rule R14). -/
def State.tagAt (s : State) (i : Nat) : Nat := s.base + i * s.rowlen

/-- The address of `payload[j]` of row `i`, `PayAddr(i) + j`, without wrap (rules R14, R60). -/
def State.payAt (s : State) (i j : Nat) : Nat := s.base + i * s.rowlen + 1 + j

/-- The payload of row `i` as it stands in memory. -/
def State.payload (s : State) (i : Nat) : List Byte := s.mem.readBytes (s.payAt i 0) s.payloadLen

/-- `P_BPP`, `P_ROWLEN`, `P_RANGE`, `P_GROUPS` of rule R255: when the configuration describes a call that
has a meaning. -/
structure LegalCall (s : State) : Prop where
  bpp_pos    : 1 ≤ s.bpp.toNat
  bpp_le     : s.bpp.toNat ≤ 8
  rowlen_pos : s.nrows = 0 ∨ 1 ≤ s.rowlen
  range      : s.nrows = 0 ∨ s.base + s.nrows * s.rowlen ≤ 2 ^ s.params.aw
  groups     : s.nrows = 0 ∨ s.payloadLen % s.bpp.toNat = 0

/-- The premises of rule R255 that a state can show: `P_CONFIG`, `P_IDLE` and those of `LegalCall`.
`P_MEMORY` and `P_EXCLUSIVE` are the model's own frame (log entries 13 and 15). -/
structure LaunchPremises (s : State) : Prop where
  idle   : s.status ≠ .busy
  config : s.written.all = true
  legal  : LegalCall s

/-- A row of a legal call is at the program counter, and memory is in its canonical form. -/
structure RowReady (s : State) : Prop where
  legal  : LegalCall s
  row_lt : s.row < s.nrows
  mem_wf : s.mem.wf = true

/-- A row that may read the row above: not the first, and `PREV` is that row's payload (rule R29). `PREV` has AW
bits: it differs from the address without wrap only for a row of one byte at the very top of the address
space, which has no payload. -/
structure AboveReady (s : State) : Prop where
  ready     : RowReady s
  not_first : 0 < s.row
  prev_eq   : s.prev = s.wrap (s.payAt (s.row - 1) 0)

/-- The frame of a row: the parameters, every control register, the host's side and the count of draws are
as before. -/
structure SameControl (s t : State) : Prop where
  params   : t.params = s.params
  base     : t.base = s.base
  nrows    : t.nrows = s.nrows
  rowlen   : t.rowlen = s.rowlen
  bpp      : t.bpp = s.bpp
  written  : t.written = s.written
  status   : t.status = s.status
  cause    : t.cause = s.cause
  sel      : t.sel = s.sel
  host     : t.host = s.host
  readData : t.readData = s.readData
  draws    : t.draws = s.draws

/-- The configuration registers and their marks, and the parameters, are as before. -/
structure SameConfig (s t : State) : Prop where
  params  : t.params = s.params
  base    : t.base = s.base
  nrows   : t.nrows = s.nrows
  rowlen  : t.rowlen = s.rowlen
  bpp     : t.bpp = s.bpp
  written : t.written = s.written

/-- What the retire step leaves (rule R194): the tag 0, the row as the previous row, the next row next. -/
structure RowRetired (s t : State) : Prop where
  tag       : t.mem.read s.tagAddr = 0
  prev      : t.prev = s.payAddr
  prevValid : t.prevValid = true
  row       : t.row = s.wrap (s.row + 1)
  phase     : t.phase = .fetch

/-- Every byte outside the current row `[TagAddr, TagAddr + L)` reads as before. -/
def OutsideRowKept (s t : State) : Prop :=
  ∀ addr, addr < s.tagAt s.row ∨ s.tagAt s.row + s.rowlen ≤ addr → t.mem.read addr = s.mem.read addr

/-- Every byte outside the buffer `[BASE, BASE + N·L)` reads as before. -/
def OutsideBufferKept (s t : State) : Prop :=
  ∀ addr, s.inBuffer addr = false → t.mem.read addr = s.mem.read addr

/-- The row's own effects on memory and on the sequencer, whatever its payload became, and the frame. -/
structure RowFrame (s t : State) : Prop where
  retired : RowRetired s t
  control : SameControl s t
  outside : OutsideRowKept s t

/-- What the sequencer keeps true while a call runs (rules R24, R25, R29, R151, R187). -/
structure Running (s : State) : Prop where
  legal      : LegalCall s
  config     : s.written.all = true
  row_le     : s.row ≤ s.nrows
  sel_eq     : s.sel = selectAll s.params s.bpp.toNat
  prev_valid : s.prevValid = decide (0 < s.row)
  prev_eq    : 0 < s.row → s.prev = s.wrap (s.payAt (s.row - 1) 0)
  in_row     : s.phase ≠ .fetch → s.row < s.nrows
  grp_le     : s.phase = .group → s.grp ≤ s.groups
  reads_ok   : s.phase = .group → ∀ op, filterOf s.op = some op → readsAbove op = true → 0 < s.row

/-- The invariant every step keeps: legal parameters, registers within their widths, memory canonical and
inside the address space, `CAUSE` 0 but after an abort and then one of 1..5 (rules R40, R220, R228), and a
running call in order. -/
structure Inv (s : State) : Prop where
  params_wf     : s.params.wf = true
  base_lt       : s.base < 2 ^ s.params.aw
  nrows_lt      : s.nrows < 2 ^ s.params.aw
  rowlen_lt     : s.rowlen < 2 ^ s.params.aw
  row_lt        : s.row < 2 ^ s.params.aw
  grp_lt        : s.grp < 2 ^ s.params.aw
  prev_lt       : s.prev < 2 ^ s.params.aw
  mem_wf        : s.mem.wf = true
  mem_below     : s.mem.below (2 ^ s.params.aw) = true
  cause_zero    : s.status ≠ .aborted → s.cause = 0
  cause_aborted : s.status = .aborted → 1 ≤ s.cause.toNat ∧ s.cause.toNat ≤ 5
  running       : s.status = .busy → Running s

/-- A call: the host writes 1 to `CTRL` and then leaves the moves to PUE. -/
def State.call (s : State) : State := { s with host := [.writeReg .ctrl 1] }

/-- The nine no-op rows (rules R95, R96, R193). -/
def isNopRow : Instr → Bool
  | .noneTag => true
  | .sub => false
  | .up => false
  | .upFirst => true
  | .avg => false
  | .avgTop => false
  | .paeth => false
  | .paethFirst => false
  | .rsvd05 => true
  | .rsvd06to07 _ => true
  | .rsvd08to0F _ => true
  | .rsvd10to1F _ => true
  | .rsvd20to3F _ => true
  | .rsvd40to7F _ => true
  | .rsvd80toFF _ => true
  | .start => false

/-- `pred` is the Paeth predictor of `a`, `b`, `c` by the words of rule R125: the distances of
`p = a + b - c`, and the tie-break `a`, then `b`, then `c`. -/
abbrev PaethChoice (a b c pred : Byte) : Prop :=
  let p : Int := (a.toNat : Int) + (b.toNat : Int) - (c.toNat : Int)
  let pa := |p - (a.toNat : Int)|
  let pb := |p - (b.toNat : Int)|
  let pc := |p - (c.toNat : Int)|
  ((pa ≤ pb ∧ pa ≤ pc) → pred = a) ∧
  (¬ (pa ≤ pb ∧ pa ≤ pc) → pb ≤ pc → pred = b) ∧
  (¬ (pa ≤ pb ∧ pa ≤ pc) → ¬ pb ≤ pc → pred = c)

end Sys2Proof.Machine
end

