-- ==== Sys2Proof/Certificates/Slice0/Obligations.lean ====
section
/-! DEFINITION. The statements for the provers. -/

open Sys2Proof Sys2Proof.Machine

/-! ## Encoding -/

/-- Rules R95 to R98, R101, R103: every encoded byte of a well-formed instruction decodes to it; every tag in
either mode is an encoding of what it decodes to; and data for `CTRL` is `START` exactly when bit 0 is set. -/
def Obligations.DecodeAndEncodeAgree : Prop :=
  (∀ i : Instr, i.wf = true → ∀ p ∈ encode i, decode p.1 p.2 = .ok i) ∧
  (∀ (first : Bool) (tag : Byte), (decodeRow first tag).wf = true ∧
    (rowSpace first, tag) ∈ encode (decodeRow first tag)) ∧
  (∀ data : Byte, decode .ctrl data =
    if data.toNat % 2 = 1 then .ok .start else .error .startBitClear)

/-- Rule R97: the tag decode as the function the rule writes. -/
def Obligations.TagDecodeIsTheDecodeFunction : Prop :=
  ∀ (first : Bool) (tag : Byte), (decodeRow first tag).op = some
    (if tag = 1 then .sub
     else if tag = 2 then (if first then .nop else .up)
     else if tag = 3 then (if first then .avgtop else .avg)
     else if tag = 4 then (if first then .sub else .paeth)
     else .nop)

/-- Rules R95, R96, R101: words written out from the table decode to the instructions they stand for. -/
def Obligations.TableWordsDecode : Prop :=
  decode .rowLater 0b00000000 = .ok .noneTag ∧ decode .rowFirst 0b00000001 = .ok .sub ∧
  decode .rowLater 0b00000010 = .ok .up ∧ decode .rowFirst 0b00000010 = .ok .upFirst ∧
  decode .rowLater 0b00000011 = .ok .avg ∧ decode .rowFirst 0b00000011 = .ok .avgTop ∧
  decode .rowLater 0b00000100 = .ok .paeth ∧ decode .rowFirst 0b00000100 = .ok .paethFirst ∧
  decode .rowLater 0b11001000 = .ok (.rsvd80toFF 0xC8) ∧ decode .ctrl 0b00000001 = .ok .start

/-- Rule R98: no tag stops the sequencer, sets a cause or changes the status; a tag of 5 to 255 has the effect
of tag 0, in either mode, so nothing records that it was seen. -/
def Obligations.NoTagIsIllegal : Prop :=
  ∀ (first : Bool) (tag : Byte) (s : State),
    (∃ t, exec (decodeRow first tag) s = .next t ∧ t.status = s.status ∧ t.cause = s.cause) ∧
    (5 ≤ tag.toNat → exec (decodeRow first tag) s = exec (decodeRow first 0) s)

/-! ## The step -/

/-- Rules R28, R189: a fetch with a row at the program counter decodes that row's tag with the first-row flag.
The model's own choices (DESIGN CHOICE): the step that begins so runs the whole row, the meaning of the decoded
instruction (log entry 6); and PUE has the move when the host's list is empty or pauses, the pause being then
used up (log entry 8). -/
def Obligations.StepRunsTheRowAtTheProgramCounter : Prop :=
  ∀ (s : State) (rest : List HostCmd),
    (s.host = [] ∧ rest = []) ∨ s.host = .pause :: rest →
    s.status = .busy → s.phase = .fetch → s.row ≠ s.nrows →
    step s = exec (decodeRow (decide (s.row = 0)) (s.mem.read s.tagAddr)) { s with host := rest }

/-- Rule R38: `CTRL` reads 0; a write with bit 0 set while not `BUSY` runs `START`; a write with bit 0 clear,
and any write while `BUSY`, does nothing. -/
def Obligations.CtrlWriteIsStartOrNothing : Prop :=
  ∀ (s : State) (v : Nat) (rest : List HostCmd),
    s.readReg .ctrl = 0 ∧
    (s.host = .writeReg .ctrl v :: rest →
      (v % 2 = 1 → s.status ≠ .busy → step s = exec .start { s with host := rest }) ∧
      (v % 2 = 0 → step s = .next { s with host := rest }) ∧
      (s.status = .busy → step s = .next { s with host := rest }))

/-- Rule R17: PUE takes no step of its own unless `BUSY`. -/
def Obligations.PueMovesOnlyWhileBusy : Prop :=
  ∀ s : State, s.status ≠ .busy → s.host = [] → step s = .next s ∧ s.microStep = s

/-- Rule R195: at `ROW = NROWS` the fetch step sets `DONE`, with `CAUSE` 0 and the call's `SEL`; memory, the
configuration and the host's side are as before, and PUE then makes no further move. -/
def Obligations.FetchAtTheEndIsDone : Prop :=
  ∀ s : State, Inv s → s.host = [] → s.status = .busy → s.phase = .fetch → s.row = s.nrows →
    ∃ t, step s = .next t ∧ t.status = .done ∧ t.cause = 0 ∧ t.sel = s.sel ∧ t.mem = s.mem ∧
      SameConfig s t ∧ t.host = [] ∧ t.readData = s.readData ∧ step t = .next t

/-! ## Rows -/

/-- Rule R193, R194, R190: a no-op row (`NONE`, `UP.F` and the seven `RSVD` rows) completes in every state
whose memory is canonical; the only byte that may change is the tag, which is then 0; the row becomes the
previous row; `A`, `C` and `GRP` are cleared by the row-start action; nothing else changes. -/
def Obligations.NopRowsKeepTheirPayload : Prop :=
  ∀ (i : Instr) (s : State), isNopRow i = true → s.mem.wf = true →
    ∃ t, exec i s = .next t ∧ RowRetired s t ∧ SameControl s t ∧
      (∀ addr, addr ≠ s.tagAddr → t.mem.read addr = s.mem.read addr) ∧
      t.op = .nop ∧ t.grp = 0 ∧ t.a = zeroGroup ∧ t.c = zeroGroup ∧
      t.b = s.b ∧ t.f = s.f ∧ t.x = s.x

/-- Rule R121: `SUB`, and `PAETH.F` which is its alias: the tags that decode to them; a group step's `X` is
`F` plus `A` in every active lane, whichever kernel is selected; and a row completes with every payload byte
the filtered byte plus the reconstructed byte one group to the left (0 in the first group), modulo 256. -/
def Obligations.SubRowAddsTheLeftNeighbour : Prop :=
  (∀ first, decodeRow first 1 = .sub) ∧ decodeRow true 4 = .paethFirst ∧
  (∀ (s : State) (k : Fin 8), k.val < s.bpp.toNat →
    let t := s.groupStep .sub
    t.x.get k = t.f.get k + s.a.get k) ∧
  ∀ (i : Instr) (s : State), i = .sub ∨ i = .paethFirst → RowReady s →
    ∃ t, exec i s = .next t ∧ RowFrame s t ∧
      ∀ j < s.payloadLen, t.mem.read (s.payAt s.row j) =
        s.mem.read (s.payAt s.row j) +
          (if s.bpp.toNat ≤ j then t.mem.read (s.payAt s.row (j - s.bpp.toNat)) else 0)

/-- Rule R122: `UP`: its tag; a group step's `X` is `F` plus `B` in every active lane; and a row completes with
every payload byte the filtered byte plus the byte above, modulo 256. -/
def Obligations.UpRowAddsTheByteAbove : Prop :=
  decodeRow false 2 = .up ∧
  (∀ (s : State) (k : Fin 8), k.val < s.bpp.toNat →
    let t := s.groupStep .up
    t.x.get k = t.f.get k + t.b.get k) ∧
  ∀ s : State, AboveReady s →
    ∃ t, exec .up s = .next t ∧ RowFrame s t ∧
      ∀ j < s.payloadLen, t.mem.read (s.payAt s.row j) =
        s.mem.read (s.payAt s.row j) + s.mem.read (s.payAt (s.row - 1) j)

/-- Rules R123, R128: `AVG`: its tag; a group step's `X` is `F` plus the floor of the mean of `A` and `B`, the
sum taken without wrap, in every active lane; and a row completes with every payload byte so computed from
the filtered byte, its left neighbour and the byte above. -/
def Obligations.AvgRowAddsTheFlooredMean : Prop :=
  decodeRow false 3 = .avg ∧
  (∀ (s : State) (k : Fin 8), k.val < s.bpp.toNat →
    let t := s.groupStep .avg
    (t.x.get k).toNat =
      ((t.f.get k).toNat + ((s.a.get k).toNat + (t.b.get k).toNat) / 2) % 256) ∧
  ∀ s : State, AboveReady s →
    ∃ t, exec .avg s = .next t ∧ RowFrame s t ∧
      ∀ j < s.payloadLen,
        let a : Byte := if s.bpp.toNat ≤ j then t.mem.read (s.payAt s.row (j - s.bpp.toNat)) else 0
        let b : Byte := s.mem.read (s.payAt (s.row - 1) j)
        (t.mem.read (s.payAt s.row j)).toNat =
          ((s.mem.read (s.payAt s.row j)).toNat + (a.toNat + b.toNat) / 2) % 256

/-- Rule R124: `AVGTOP`: its tag; a group step's `X` is `F` plus half of `A`, rounded down, in every active
lane; and a row completes with every payload byte so computed from the filtered byte and its left neighbour. -/
def Obligations.AvgTopRowAddsHalfTheLeftNeighbour : Prop :=
  decodeRow true 3 = .avgTop ∧
  (∀ (s : State) (k : Fin 8), k.val < s.bpp.toNat →
    let t := s.groupStep .avgtop
    (t.x.get k).toNat = ((t.f.get k).toNat + (s.a.get k).toNat / 2) % 256) ∧
  ∀ s : State, RowReady s →
    ∃ t, exec .avgTop s = .next t ∧ RowFrame s t ∧
      ∀ j < s.payloadLen,
        let a : Byte := if s.bpp.toNat ≤ j then t.mem.read (s.payAt s.row (j - s.bpp.toNat)) else 0
        (t.mem.read (s.payAt s.row j)).toNat =
          ((s.mem.read (s.payAt s.row j)).toNat + a.toNat / 2) % 256

/-- Rule R125: `PAETH`: its tag; a group step's `X` is `F` plus the predictor of `A`, `B` and `C`, by the
distances and the tie-break of the rule, in every active lane; and a row completes with every payload byte so
computed from the filtered byte and its left, above and above-left neighbours. -/
def Obligations.PaethRowAddsThePredictor : Prop :=
  decodeRow false 4 = .paeth ∧
  (∀ (s : State) (k : Fin 8), k.val < s.bpp.toNat →
    let t := s.groupStep .paeth
    ∃ pred, PaethChoice (s.a.get k) (t.b.get k) (s.c.get k) pred ∧ t.x.get k = t.f.get k + pred) ∧
  ∀ s : State, AboveReady s →
    ∃ t, exec .paeth s = .next t ∧ RowFrame s t ∧
      ∀ j < s.payloadLen,
        let a : Byte := if s.bpp.toNat ≤ j then t.mem.read (s.payAt s.row (j - s.bpp.toNat)) else 0
        let b : Byte := s.mem.read (s.payAt (s.row - 1) j)
        let c : Byte :=
          if s.bpp.toNat ≤ j then s.mem.read (s.payAt (s.row - 1) (j - s.bpp.toNat)) else 0
        ∃ pred, PaethChoice a b c pred ∧
          t.mem.read (s.payAt s.row j) = s.mem.read (s.payAt s.row j) + pred

/-- Rule R133: run group by group by the kernel `SEL` names, every reconstructing row leaves the payload that
the byte-indexed whole-row form gives. -/
def Obligations.RowRunsAreTheWholeRowForm : Prop :=
  ∀ (i : Instr) (op : Filter) (s : State), i.op.bind filterOf = some op → RowReady s →
    (readsAbove op = true → AboveReady s) →
    ∃ t, exec i s = .next t ∧
      t.payload s.row = rowKernel op s.bpp.toNat (s.payload s.row)
        (if readsAbove op then s.payload (s.row - 1) else [])

/-- Rules R189 to R194, R196, R197: a row run in one step is the micro-steps of the row: one fetch, one for
each group unless the row is a `NOP`, one that moves to `RETIRE`, one retire. -/
def Obligations.RowIsItsMicroSteps : Prop :=
  ∀ s : State, s.rowlen < 2 ^ s.params.aw → s.status = .busy → s.phase = .fetch → s.row ≠ s.nrows →
    exec s.fetchInstr s =
      .next (State.microSteps ((if isNopRow s.fetchInstr then 0 else s.groups) + 3) s)

/-- The model's own choice (DESIGN CHOICE, log entries 7 and 6), not a rule of the spec: a step from a state
inside a row, which only a run of micro-steps reaches and no run of steps, runs the rest of the row. Stated:
that step is the micro-steps (their rules R191, R192, R194) up to the next fetch. -/
def Obligations.StepInsideARowIsMicroSteps : Prop :=
  ∀ s : State, s.rowlen < 2 ^ s.params.aw → s.grp < 2 ^ s.params.aw → s.host = [] →
    s.status = .busy → s.phase ≠ .fetch →
    ∃ n, step s = .next (State.microSteps n s) ∧ (State.microSteps n s).phase = .fetch ∧
      ∀ m < n, (State.microSteps m s).phase ≠ .fetch

/-- Rule R192: after a group step inside a row, `F` holds the group as it was in memory, `A` and `X` the group
as it now is, `B` and `C` the group above where the operation reads it and 0 where it does not, and `GRP` is
one more (rule R191). -/
def Obligations.GroupStepMovesTheHistory : Prop :=
  ∀ (op : Filter) (s : State), RowReady s → (readsAbove op = true → AboveReady s) →
    s.grp < s.groups → s.status = .busy → s.phase = .group → filterOf s.op = some op →
    let t := s.microStep
    t.grp = s.grp + 1 ∧ t.phase = .group ∧ t.x = t.a ∧ t.c = t.b ∧
    (readsAbove op = false → t.b = zeroGroup) ∧
    ∀ k : Fin 8, k.val < s.bpp.toNat →
      t.f.get k = s.mem.read (s.payAt s.row (s.grp * s.bpp.toNat + k.val)) ∧
      t.a.get k = t.mem.read (s.payAt s.row (s.grp * s.bpp.toNat + k.val)) ∧
      (readsAbove op = true →
        t.b.get k = s.mem.read (s.payAt (s.row - 1) (s.grp * s.bpp.toNat + k.val)))

/-- Rule R62: a row reads only its own bytes and, where its operation has one, the row above, and writes only
its own: two memories that agree there are left agreeing on the row, and unchanged outside it. -/
def Obligations.RowReadsOnlyItselfAndTheRowAbove : Prop :=
  ∀ (i : Instr) (s : State) (m : Memory), i ≠ .start → RowReady s → m.wf = true →
    (∀ addr, s.tagAt s.row ≤ addr → addr < s.tagAt s.row + s.rowlen → m.read addr = s.mem.read addr) →
    (∀ op, i.op.bind filterOf = some op → readsAbove op = true → AboveReady s ∧
      ∀ j < s.payloadLen, m.read (s.payAt (s.row - 1) j) = s.mem.read (s.payAt (s.row - 1) j)) →
    ∃ t t', exec i s = .next t ∧ exec i { s with mem := m } = .next t' ∧
      t' = { t with mem := t'.mem } ∧
      (∀ addr, s.tagAt s.row ≤ addr → addr < s.tagAt s.row + s.rowlen →
        t'.mem.read addr = t.mem.read addr) ∧
      OutsideRowKept s t ∧ OutsideRowKept { s with mem := m } t'

/-- Rules R202, R224: in a legal call the four address forms do not wrap, and every byte they reach lies in the
buffer. -/
def Obligations.AddressesDoNotWrap : Prop :=
  ∀ s : State, RowReady s →
    s.tagAddr = s.base + s.row * s.rowlen ∧ s.inBuffer s.tagAddr = true ∧
    (s.grp < s.groups →
      s.grpAddr = s.base + s.row * s.rowlen + 1 + s.grp * s.bpp.toNat ∧
      ∀ k < s.bpp.toNat, s.inBuffer (s.grpAddr + k) = true ∧ s.grpAddr + k < 2 ^ s.params.aw) ∧
    (s.grp < s.groups → AboveReady s →
      s.aboveAddr = s.base + (s.row - 1) * s.rowlen + 1 + s.grp * s.bpp.toNat ∧
      ∀ k < s.bpp.toNat, s.inBuffer (s.aboveAddr + k) = true ∧ s.aboveAddr + k < 2 ^ s.params.aw)

/-! ## Kernels -/

/-- Rule R163: in every lane below `BPP`, whatever kernel is selected gives the byte the scalar kernel gives,
for every operation and all byte values. -/
def Obligations.VectorKernelsEqualScalar : Prop :=
  ∀ (fam : Kernel) (op : Filter) (bpp : Nat) (f a b c : Lanes Byte) (k : Fin 8),
    1 ≤ bpp → bpp ≤ 8 → k.val < bpp →
    (runKernel fam op bpp f a b c).get k = (runKernel .scalar op bpp f a b c).get k

/-- Rule R129: the Paeth predictor by the equivalent distances `|b - c|`, `|a - c|`, `|a + b - 2c|`, with the
same tie-break. -/
def Obligations.PaethEquivalentDistances : Prop :=
  ∀ a b c : Byte,
    let pa : Int := |(b.toNat : Int) - c.toNat|
    let pb : Int := |(a.toNat : Int) - c.toNat|
    let pc : Int := |(a.toNat : Int) + b.toNat - 2 * c.toNat|
    (paethPredictor a b c = if pa ≤ pb ∧ pa ≤ pc then a else if pb ≤ pc then b else c) ∧
    ∀ k : Fin 8, ∀ ga gb gc : Lanes Byte, ga.get k = a → gb.get k = b → gc.get k = c →
      (vPaethPredictor ga gb gc).get k =
        if pa ≤ pb ∧ pa ≤ pc then a else if pb ≤ pc then b else c

/-- Rules R130, R131, R132: against an all-zero row above, Paeth is Sub, Average is AverageTop and Up changes
nothing, whichever kernels are selected. -/
def Obligations.FirstRowIdentities : Prop :=
  ∀ (fam fam' : Kernel) (bpp : Nat) (f a : Lanes Byte) (k : Fin 8), k.val < bpp →
    (runKernel fam .paeth bpp f a zeroGroup zeroGroup).get k =
      (runKernel fam' .sub bpp f a zeroGroup zeroGroup).get k ∧
    (runKernel fam .avg bpp f a zeroGroup zeroGroup).get k =
      (runKernel fam' .avgtop bpp f a zeroGroup zeroGroup).get k ∧
    (runKernel fam .up bpp f a zeroGroup zeroGroup).get k = f.get k

/-- Rule R152: the group load reads exactly the `BPP` bytes from its address, in the order of addresses, and
zero-fills the other lanes. -/
def Obligations.GroupLoadIsZeroPadded : Prop :=
  ∀ (s : State) (addr : Nat) (k : Fin 8), addr + s.bpp.toNat ≤ 2 ^ s.params.aw →
    (s.loadGroup addr).get k = if k.val < s.bpp.toNat then s.mem.read (addr + k.val) else 0

/-- Rule R153: the group store writes the lanes below `BPP` and nothing else, and lanes at or above `BPP` that
are 0 in `A` and `C` are 0 in all five registers after a group step. -/
def Obligations.GroupStoreWritesOnlyActiveLanes : Prop :=
  (∀ (s : State) (addr : Nat) (r : Lanes Byte), s.mem.wf = true → s.bpp.toNat ≤ 8 →
    addr + s.bpp.toNat ≤ 2 ^ s.params.aw →
    let t := s.storeGroup addr r
    (∀ k : Fin 8, k.val < s.bpp.toNat → t.mem.read (addr + k.val) = r.get k) ∧
    (∀ x, x < addr ∨ addr + s.bpp.toNat ≤ x → t.mem.read x = s.mem.read x) ∧
    t = { s with mem := t.mem }) ∧
  (∀ (s : State) (op : Filter) (k : Fin 8), s.bpp.toNat ≤ k.val →
    s.a.get k = 0 → s.c.get k = 0 →
    let t := s.groupStep op
    t.a.get k = 0 ∧ t.b.get k = 0 ∧ t.c.get k = 0 ∧ t.f.get k = 0 ∧ t.x.get k = 0)

/-- Rules R164, R187: what `SEL` holds changes nothing else: a row run under another selection ends in the same
state but for `SEL` itself. -/
def Obligations.SelectionChangesNothingElse : Prop :=
  ∀ (i : Instr) (s : State) (sel : Sel), i ≠ .start →
    ∃ t, exec i s = .next t ∧ exec i { s with sel := sel } = .next { t with sel := sel }

/-! ## START -/

/-- Rule R181 with rule R255's premises, for a call with rows: `START` completes; the call is `BUSY` at the
fetch of row 0, `CAUSE` is cleared and `SEL` selected; nothing else changes, memory least of all. -/
def Obligations.StartBeginsTheCall : Prop :=
  ∀ s : State, LaunchPremises s → s.nrows ≠ 0 →
    exec .start s = .next { s with
      cause := 0, sel := selectAll s.params s.bpp.toNat, row := 0, prevValid := false,
      status := .busy, phase := .fetch }

/-- Rule R182: with no rows and `BPP` in 1..8 the call is `DONE` at once, whatever `BASE` and `ROWLEN` hold, and
memory is not touched; with `BPP` outside 1..8 it aborts. -/
def Obligations.EmptyBufferIsDoneAtOnce : Prop :=
  ∀ s : State, s.status ≠ .busy → s.written.all = true → s.nrows = 0 →
    (1 ≤ s.bpp.toNat → s.bpp.toNat ≤ 8 →
      ∃ t, exec .start s = .next t ∧ t.status = .done ∧ t.cause = 0 ∧ t.mem = s.mem ∧
        t.sel = selectAll s.params s.bpp.toNat ∧ SameConfig s t ∧
        t.host = s.host ∧ t.readData = s.readData) ∧
    (s.bpp.toNat = 0 ∨ 8 < s.bpp.toNat → ∃ t, exec .start s = .next t ∧ t.status = .aborted)

/-- Rule R229: the entry checks in their order; `CAUSE` reports the lowest code that applies, and a call to
which none applies does not abort (for `STRICT = 0` the fifth check is not made). -/
def Obligations.EntryChecksReportTheLowestCode : Prop :=
  ∀ s : State, s.status ≠ .busy → s.written.all = true →
    let aborts (code : Byte) : Prop :=
      ∃ t, exec .start s = .next t ∧ t.status = .aborted ∧ t.cause = code
    let legalBpp : Prop := s.bpp.toNat ≠ 0 ∧ s.bpp.toNat ≤ 8
    let fits : Prop := s.base + s.nrows * s.rowlen ≤ 2 ^ s.params.aw
    (8 < s.bpp.toNat → aborts 1) ∧
    (s.bpp.toNat = 0 → aborts 2) ∧
    (legalBpp → 1 ≤ s.nrows → s.rowlen = 0 → aborts 3) ∧
    (legalBpp → 1 ≤ s.nrows → s.rowlen ≠ 0 → ¬ fits → aborts 4) ∧
    (legalBpp → 1 ≤ s.nrows → s.rowlen ≠ 0 → fits → s.params.strict = true →
      (s.rowlen - 1) % s.bpp.toNat ≠ 0 → aborts 5) ∧
    (legalBpp →
      (s.nrows = 0 ∨ (s.rowlen ≠ 0 ∧ fits ∧
        (s.params.strict = false ∨ (s.rowlen - 1) % s.bpp.toNat = 0))) →
      ∀ code, ¬ aborts code)

/-- Rules R226, R227: a `START` that aborts ends the call: `STATE` is `ABORTED`, `CAUSE` one of the codes 1 to
5; every byte outside the buffer, the configuration and the host's side are as before. -/
def Obligations.AbortTouchesNothingOutsideTheBuffer : Prop :=
  ∀ s t : State, s.status ≠ .busy → exec .start s = .next t → t.status = .aborted →
    1 ≤ t.cause.toNat ∧ t.cause.toNat ≤ 5 ∧ SameConfig s t ∧ OutsideBufferKept s t ∧
    t.host = s.host ∧ t.readData = s.readData

/-- Rule R225: `LEN_NOT_MULTIPLE`. With `STRICT = 1` a payload that is no whole number of groups aborts with
code 5; with `STRICT = 0` the call is refused; with no rows, or a whole number of groups, neither happens. -/
def Obligations.LengthNotAMultipleAbortsOrIsRefused : Prop :=
  ∀ s : State, s.status ≠ .busy → s.written.all = true →
    1 ≤ s.bpp.toNat → s.bpp.toNat ≤ 8 → 1 ≤ s.rowlen →
    s.base + s.nrows * s.rowlen ≤ 2 ^ s.params.aw →
    ((s.rowlen - 1) % s.bpp.toNat ≠ 0 → 1 ≤ s.nrows → s.params.strict = true →
      ∃ t, exec .start s = .next t ∧ t.status = .aborted ∧ t.cause = 5) ∧
    ((s.rowlen - 1) % s.bpp.toNat ≠ 0 → 1 ≤ s.nrows → s.params.strict = false →
      exec .start s = .refused .lengthNotMultiple) ∧
    (((s.rowlen - 1) % s.bpp.toNat = 0 ∨ s.nrows = 0) →
      ∃ t, exec .start s = .next t ∧ t.status ≠ .aborted)

/-- Rule R253: `START` with a configuration register not written since reset is refused; a host write while not
`BUSY` sets the register and its mark; and a register and its mark stay until rewritten or reset. -/
def Obligations.UnwrittenConfigurationIsRefused : Prop :=
  (∀ s : State, s.status ≠ .busy →
    (s.written.base = false ∨ s.written.nrows = false ∨ s.written.rowlen = false ∨
      s.written.bpp = false) → exec .start s = .refused .configUnwritten) ∧
  (∀ s t : State, step s = .next t →
    ((t.base = s.base ∧ t.written.base = s.written.base) ∨
      (∃ v rest, s.host = .writeReg .base v :: rest) ∨ (∃ rest, s.host = .reset :: rest)) ∧
    ((t.nrows = s.nrows ∧ t.written.nrows = s.written.nrows) ∨
      (∃ v rest, s.host = .writeReg .nrows v :: rest) ∨ (∃ rest, s.host = .reset :: rest)) ∧
    ((t.rowlen = s.rowlen ∧ t.written.rowlen = s.written.rowlen) ∨
      (∃ v rest, s.host = .writeReg .rowlen v :: rest) ∨ (∃ rest, s.host = .reset :: rest)) ∧
    ((t.bpp = s.bpp ∧ t.written.bpp = s.written.bpp) ∨
      (∃ v rest, s.host = .writeReg .bpp v :: rest) ∨ (∃ rest, s.host = .reset :: rest))) ∧
  (∀ (s : State) (v : Nat) (rest : List HostCmd), s.status ≠ .busy →
    (s.host = .writeReg .base v :: rest →
      ∃ t, step s = .next t ∧ t.base = v % 2 ^ s.params.aw ∧ t.written.base = true) ∧
    (s.host = .writeReg .nrows v :: rest →
      ∃ t, step s = .next t ∧ t.nrows = v % 2 ^ s.params.aw ∧ t.written.nrows = true) ∧
    (s.host = .writeReg .rowlen v :: rest →
      ∃ t, step s = .next t ∧ t.rowlen = v % 2 ^ s.params.aw ∧ t.written.rowlen = true) ∧
    (s.host = .writeReg .bpp v :: rest →
      ∃ t, step s = .next t ∧ t.bpp.toNat = v % 256 ∧ t.written.bpp = true))

/-- Rule R186: which kernel an accepted `START` selects for each operation: VA, VX2, VX1 or SCALAR, by the
feature bits and the thresholds; a family is named only if its `FEAT` bit is 1. -/
def Obligations.StartSelectsByFeatureAndThreshold : Prop :=
  ∀ (s t : State) (op : Filter), s.params.wf = true → LaunchPremises s → exec .start s = .next t →
    let thr := thresholdsOf s.params.thr op
    let vx1 : Prop := s.params.feat.getLsbD 0 = true ∧ thr.vx1 ≤ s.bpp.toNat
    let vx2 : Prop := s.params.feat.getLsbD 1 = true ∧ thr.vx2 ≤ s.bpp.toNat
    let va : Prop := s.params.feat.getLsbD 2 = true ∧ thr.va ≤ s.bpp.toNat
    (t.sel.get op = .va ↔ va) ∧ (t.sel.get op = .vx2 ↔ vx2) ∧
    (t.sel.get op = .vx1 ↔ vx1 ∧ ¬ vx2) ∧ (t.sel.get op = .scalar ↔ ¬ vx1 ∧ ¬ vx2 ∧ ¬ va)

/-- Rule R255: a `START` written while not `BUSY` gives the call a meaning other than an abort exactly when the
launch premises hold. -/
def Obligations.CallHasMeaningExactlyUnderThePremises : Prop :=
  ∀ s : State, s.status ≠ .busy →
    ((∃ t, exec .start s = .next t ∧ t.status ≠ .aborted) ↔ LaunchPremises s)

/-! ## Whole calls -/

/-- Rule R198: under the launch premises a call runs to `DONE` with `CAUSE` 0, and memory is then what the
one-function form gives; bytes outside the buffer are unchanged. -/
def Obligations.CallRunsToUnfilter : Prop :=
  ∀ s : State, Inv s → LaunchPremises s →
    ∃ t, core.run (s.nrows + 2) s.call = .next t ∧ t.status = .done ∧ t.cause = 0 ∧
      t.mem = unfilter s.base s.rowlen s.bpp.toNat s.nrows s.mem ∧ OutsideBufferKept s t

/-- Rule R199: the postconditions of a call that ends in `DONE`: (a) every tag 0; (b) rows with tag 0 or 5..255
keep their payload; (c) first-row tag 4 gives what tag 1 gives; (d) size and place of the buffer unchanged, and
nothing outside it; (e) no dependence on the kernels the instance has or selects. -/
def Obligations.PostconditionsOfACall : Prop :=
  ∀ s : State, Inv s → LaunchPremises s →
    ∃ t, core.run (s.nrows + 2) s.call = .next t ∧ t.status = .done ∧
      (∀ i < s.nrows, t.mem.read (s.tagAt i) = 0) ∧
      (∀ i < s.nrows, (s.mem.read (s.tagAt i) = 0 ∨ 5 ≤ (s.mem.read (s.tagAt i)).toNat) →
        t.payload i = s.payload i) ∧
      (0 < s.nrows → s.mem.read (s.tagAt 0) = 4 →
        ∃ t', core.run (s.nrows + 2) { s with mem := s.mem.write (s.tagAt 0) 1 }.call = .next t' ∧
          t'.mem = t.mem) ∧
      (t.base = s.base ∧ t.nrows = s.nrows ∧ t.rowlen = s.rowlen ∧ OutsideBufferKept s t) ∧
      (∀ (feat : BitVec 3) (thr : Thresholds),
        ∃ t', core.run (s.nrows + 2)
            { s with params := { s.params with feat := feat, thr := thr } }.call = .next t' ∧
          t'.mem = t.mem)

/-- Rule R100: after a call that ends in `DONE` every tag is 0, and the same call made again changes nothing. -/
def Obligations.FinishedBufferIsAFixedPoint : Prop :=
  ∀ s t : State, Inv s → LaunchPremises s → core.run (s.nrows + 2) s.call = .next t →
    (∀ i < s.nrows, t.mem.read (s.tagAt i) = 0) ∧
    ∃ u, core.run (s.nrows + 2) t.call = .next u ∧ u.status = .done ∧ u.mem = t.mem

/-- Rule R196: from the fetch of row 0 a running call is `DONE` after a number of micro-steps between
`3·N + 1` and `N·(G + 3) + 1`, and `BUSY` until then. -/
def Obligations.CallEndsWithinItsMicroSteps : Prop :=
  ∀ s : State, Inv s → s.status = .busy → s.phase = .fetch → s.row = 0 →
    ∃ n, 3 * s.nrows + 1 ≤ n ∧ n ≤ s.nrows * (s.groups + 3) + 1 ∧
      (State.microSteps n s).status = .done ∧
      ∀ m < n, (State.microSteps m s).status = .busy

/-! ## Invariants of the machine -/

/-- Rules R24, R25, R29, R40, R187, R220: every step keeps the invariant: registers within their widths, memory
canonical and inside the address space, `CAUSE` 0 outside `ABORTED`, and a running call in order. -/
def Obligations.StepKeepsTheInvariant : Prop :=
  ∀ s t : State, Inv s → step s = .next t → Inv t

/-- Rule R47: an instance with legal parameters has the invariant right after reset. -/
def Obligations.ResetHasTheInvariant : Prop :=
  ∀ p : Params, p.wf = true → Inv (State.resetOf p)

/-- Rule R24: while a call runs `ROW` stays or advances by one; a call begins to run only where the host writes
`CTRL` with bit 0 set while not `BUSY` (rule R38), and `ROW` is then 0. -/
def Obligations.RowNeverGoesBack : Prop :=
  ∀ s t : State, Inv s → step s = .next t → t.status = .busy →
    (s.status = .busy ∧ (t.row = s.row ∨ (t.row = s.row + 1 ∧ s.row < s.nrows))) ∨
    (s.status ≠ .busy ∧ t.row = 0 ∧ ∃ v rest, s.host = .writeReg .ctrl v :: rest ∧ v % 2 = 1)

/-- Rules R35, R41: the constants of the instance never change. -/
def Obligations.ParametersNeverChange : Prop :=
  ∀ s t : State, step s = .next t → t.params = s.params

/-! ## Reset and the host -/

/-- Rule R47, the values the spec gives: after reset `STATE` is `IDLE`, `CAUSE` 0, `CTRL` reads 0, `FEAT` and
`CFG.STRICT` are the instance's constants; and a `START` is refused, since nothing is written yet (R253). -/
def Obligations.ResetLeavesTheEngineIdle : Prop :=
  ∀ p : Params,
    let s := State.resetOf p
    s.readReg .status = 0 ∧ s.readReg .cause = 0 ∧ s.readReg .ctrl = 0 ∧
    s.readReg .feat = p.feat.toNat ∧ s.readReg .cfg = (if p.strict then 1 else 0) ∧ s.params = p ∧
    exec .start s = .refused .configUnwritten

/-- Rules R250, R251, R252: the reset input completes in every state: `IDLE`, `CAUSE` 0, nothing written, the
constants kept; memory is untouched unless a call was running, and then outside its buffer. -/
def Obligations.ResetInputEndsTheCall : Prop :=
  ∀ (s : State) (rest : List HostCmd), s.host = .reset :: rest →
    ∃ t, step s = .next t ∧ t.status = .idle ∧ t.cause = 0 ∧ t.written = Written.none ∧
      t.params = s.params ∧ t.host = rest ∧
      (s.status ≠ .busy → t.mem = s.mem) ∧ (s.status = .busy → OutsideBufferKept s t)

/-- Rule R42: while `BUSY` a write of any control register changes nothing, and a read of any control register
is allowed in every state and changes only what the host got back. -/
def Obligations.WritesWhileBusyAreIgnored : Prop :=
  ∀ (s : State) (r : CReg) (rest : List HostCmd),
    (∀ v, s.host = .writeReg r v :: rest → s.status = .busy → step s = .next { s with host := rest }) ∧
    (s.host = .readReg r :: rest →
      step s = .next { s with host := rest, readData := s.readReg r })

/-- Rules R48, R31 to R41: the control registers as the host sees them, in every state. Each reads within its
width. `BASE`, `NROWS`, `ROWLEN` and `BPP` read what they hold, `CTRL` reads 0. `STATUS` reads 0, 1, 2 or 3 for
IDLE, BUSY, DONE, ABORTED (rule R39). `CAUSE` reads the cause register, which under the invariant is 0 but after
an abort and then one of 1..5 (rule R40). `FEAT` and `CFG` read the instance's constants (rules R35, R41). `SEL`
holds its five fields in their places, with 0 SCALAR, 1 VX1, 2 VX2, 3 VA (rule R37). A host write while not `BUSY`
sets a configuration register, cut to its width, and its mark (rule R253), and nothing else; a host write of a
read-only register changes nothing. -/
def Obligations.ControlRegisterMap : Prop :=
  ∀ s : State,
    (Inv s → s.readReg .base < 2 ^ s.params.aw ∧ s.readReg .nrows < 2 ^ s.params.aw ∧
      s.readReg .rowlen < 2 ^ s.params.aw) ∧
    s.readReg .bpp < 256 ∧ s.readReg .status < 4 ∧ s.readReg .cause < 256 ∧ s.readReg .feat < 8 ∧
    s.readReg .sel < 1024 ∧ s.readReg .cfg < 2 ∧
    (s.readReg .base = s.base ∧ s.readReg .nrows = s.nrows ∧ s.readReg .rowlen = s.rowlen ∧
      s.readReg .bpp = s.bpp.toNat ∧ s.readReg .ctrl = 0) ∧
    ((s.readReg .status = 0 ↔ s.status = .idle) ∧ (s.readReg .status = 1 ↔ s.status = .busy) ∧
      (s.readReg .status = 2 ↔ s.status = .done) ∧ (s.readReg .status = 3 ↔ s.status = .aborted)) ∧
    s.readReg .cause = s.cause.toNat ∧
    (Inv s → (s.status ≠ .aborted → s.readReg .cause = 0) ∧
      (s.status = .aborted → 1 ≤ s.readReg .cause ∧ s.readReg .cause ≤ 5)) ∧
    s.readReg .feat = s.params.feat.toNat ∧
    ((s.readReg .feat % 2 = 1 ↔ s.params.feat.getLsbD 0 = true) ∧
      (s.readReg .feat / 2 % 2 = 1 ↔ s.params.feat.getLsbD 1 = true) ∧
      (s.readReg .feat / 4 % 2 = 1 ↔ s.params.feat.getLsbD 2 = true)) ∧
    s.readReg .cfg = (if s.params.strict then 1 else 0) ∧
    (kernelCode .scalar = 0 ∧ kernelCode .vx1 = 1 ∧ kernelCode .vx2 = 2 ∧ kernelCode .va = 3) ∧
    s.readReg .sel % 4 = kernelCode s.sel.sub ∧ s.readReg .sel / 4 % 4 = kernelCode s.sel.up ∧
    s.readReg .sel / 16 % 4 = kernelCode s.sel.avg ∧ s.readReg .sel / 64 % 4 = kernelCode s.sel.avgtop ∧
    s.readReg .sel / 256 = kernelCode s.sel.paeth ∧
    (∀ v rest, s.status ≠ .busy →
      (s.host = .writeReg .base v :: rest → step s = .next { s with
        host := rest, base := v % 2 ^ s.params.aw, written := { s.written with base := true } }) ∧
      (s.host = .writeReg .nrows v :: rest → step s = .next { s with
        host := rest, nrows := v % 2 ^ s.params.aw, written := { s.written with nrows := true } }) ∧
      (s.host = .writeReg .rowlen v :: rest → step s = .next { s with
        host := rest, rowlen := v % 2 ^ s.params.aw, written := { s.written with rowlen := true } }) ∧
      (s.host = .writeReg .bpp v :: rest → step s = .next { s with
        host := rest, bpp := BitVec.ofNat 8 v, written := { s.written with bpp := true } })) ∧
    (∀ v r rest, r = .status ∨ r = .cause ∨ r = .feat ∨ r = .sel ∨ r = .cfg →
      s.host = .writeReg r v :: rest → step s = .next { s with host := rest })

/-- Rules R70, R256: while `BUSY` a host access to a byte of the buffer has no meaning, so the model refuses it.
The model's own conventions: every other access to a byte that exists completes, while `BUSY` too, changing that
byte, or only what the host got back (DEDUCED, log entry 15); and an address at or above `2^AW` names no byte, so
an access to it faults (DESIGN CHOICE, log entry 14). -/
def Obligations.BufferBelongsToPueWhileBusy : Prop :=
  ∀ (s : State) (addr : Nat) (v : Byte) (rest : List HostCmd),
    (s.host = .writeMem addr v :: rest →
      step s = if 2 ^ s.params.aw ≤ addr then .fault .noSuchAddress
        else if s.status = .busy ∧ s.inBuffer addr then .refused .bufferOwnedByPue
        else .next { s with host := rest, mem := s.mem.write addr v }) ∧
    (s.host = .readMem addr :: rest →
      step s = if 2 ^ s.params.aw ≤ addr then .fault .noSuchAddress
        else if s.status = .busy ∧ s.inBuffer addr then .refused .bufferOwnedByPue
        else .next { s with host := rest, readData := (s.mem.read addr).toNat })
end

