-- ==== Sys2Proof/Laws/Lanes.lean ====
section
/-! SUPPORT. The laws of lanes: what each lane of a built group is, and groups equal lane by lane. -/

namespace Sys2Proof

/-- A lane of a group built lane by lane. -/
@[simp] theorem Lanes.get_ofFn {α : Type} (g : Fin 8 → α) (k : Fin 8) : (Lanes.ofFn g).get k = g k := by
  match k with
  | ⟨0, _⟩ => rfl
  | ⟨1, _⟩ => rfl
  | ⟨2, _⟩ => rfl
  | ⟨3, _⟩ => rfl
  | ⟨4, _⟩ => rfl
  | ⟨5, _⟩ => rfl
  | ⟨6, _⟩ => rfl
  | ⟨7, _⟩ => rfl

/-- A lane of a one-operand lane operation depends on that lane only (rule R155). -/
@[simp] theorem Lanes.get_map {α β : Type} (g : α → β) (r : Lanes α) (k : Fin 8) :
    (r.map g).get k = g (r.get k) := by
  simp [Lanes.map]

/-- A lane of a two-operand lane operation depends on that lane only (rule R155). -/
@[simp] theorem Lanes.get_zip {α β γ : Type} (g : α → β → γ) (r : Lanes α) (t : Lanes β) (k : Fin 8) :
    (Lanes.zip g r t).get k = g (r.get k) (t.get k) := by
  simp [Lanes.zip]

/-- Groups that agree in every lane are equal. -/
theorem Lanes.ext_get {α : Type} {r t : Lanes α} (h : ∀ k, r.get k = t.get k) : r = t := by
  cases r
  cases t
  have h0 := h 0
  have h1 := h 1
  have h2 := h 2
  have h3 := h 3
  have h4 := h 4
  have h5 := h 5
  have h6 := h 6
  have h7 := h 7
  simp only [Lanes.get] at h0 h1 h2 h3 h4 h5 h6 h7
  subst h0 h1 h2 h3 h4 h5 h6 h7
  rfl

namespace Machine

/-- Every lane of the zero group is 0. -/
@[simp] theorem zeroGroup_get (k : Fin 8) : zeroGroup.get k = 0 := by
  match k with
  | ⟨0, _⟩ => rfl
  | ⟨1, _⟩ => rfl
  | ⟨2, _⟩ => rfl
  | ⟨3, _⟩ => rfl
  | ⟨4, _⟩ => rfl
  | ⟨5, _⟩ => rfl
  | ⟨6, _⟩ => rfl
  | ⟨7, _⟩ => rfl

/-- A lane of a select (rule R155). -/
@[simp] theorem selLanes_get (m : Lanes Bool) (r t : Lanes Byte) (k : Fin 8) :
    (selLanes m r t).get k = if m.get k then r.get k else t.get k := by
  simp [selLanes]

/-- A lane of a scalar kernel's result (rules R121 to R125). -/
theorem scalarKernel_get (op : Filter) (bpp : Nat) (f a b c : Lanes Byte) (k : Fin 8) :
    (scalarKernel op bpp f a b c).get k =
      if k.val < bpp then f.get k + predictor op (a.get k) (b.get k) (c.get k) else 0 := by
  simp [scalarKernel]

/-- The field of an operation in a `SEL` built field by field. -/
@[simp] theorem Sel.get_ofFn (k : Filter → Kernel) (op : Filter) : (Sel.ofFn k).get op = k op := by
  cases op <;> rfl

end Machine

end Sys2Proof
end

