-- ==== Sys2Proof/Laws/Memory.lean ====
section
/-! SUPPORT. The laws of memory: read after write, the frame of a write, the canonical form kept by every memory
operation, and memories in that form equal when they read alike. -/

namespace Sys2Proof.Machine.Memory

/-- A canonical memory's tail is canonical. -/
theorem wf_tail {k : Nat} {v : Byte} {m : Memory} (h : Memory.wf ((k, v) :: m) = true) :
    Memory.wf m = true := by
  cases m with
  | nil => rfl
  | cons p m => obtain ⟨k', v'⟩ := p; simp [Memory.wf] at h; exact h.2

/-- The head of a canonical memory is not the background. -/
theorem wf_head {k : Nat} {v : Byte} {m : Memory} (h : Memory.wf ((k, v) :: m) = true) :
    v ≠ Memory.background := by
  cases m with
  | nil => simpa [Memory.wf] using h
  | cons p m => obtain ⟨k', v'⟩ := p; simp [Memory.wf] at h; exact h.1.1

/-- Below and at the head's address, a canonical memory's tail reads the background. -/
theorem read_tail_of_le {k : Nat} {v : Byte} {m : Memory} (h : Memory.wf ((k, v) :: m) = true)
    {addr : Nat} (ha : addr ≤ k) : Memory.read m addr = Memory.background := by
  induction m generalizing k v with
  | nil => rfl
  | cons p m ih =>
    obtain ⟨k', v'⟩ := p
    have hk : k < k' := by simp [Memory.wf] at h; exact h.1.2
    have hne : k' ≠ addr := by omega
    simp only [Memory.read, hne, if_false]
    exact ih (wf_tail h) (by omega)

/-- Putting an entry before a memory whose head lies higher keeps the form. -/
theorem wf_cons {k : Nat} {v : Byte} {m : Memory} (hv : v ≠ Memory.background)
    (hm : Memory.wf m = true) (hk : ∀ k' v' m', m = (k', v') :: m' → k < k') :
    Memory.wf ((k, v) :: m) = true := by
  cases m with
  | nil => simpa [Memory.wf] using hv
  | cons p m =>
    obtain ⟨k', v'⟩ := p
    have := hk k' v' m rfl
    simp [Memory.wf, hv, this, hm]

/-- A write leaves every other byte alone (rule R68). -/
theorem read_write_ne (m : Memory) {addr addr' : Nat} (v : Byte) (h : addr' ≠ addr) :
    (m.write addr v).read addr' = m.read addr' := by
  induction m with
  | nil =>
    by_cases hv : v = Memory.background
    · simp [Memory.write, hv]
    · simp [Memory.write, hv, Memory.read, Ne.symm h]
  | cons p m ih =>
    obtain ⟨k, w⟩ := p
    simp only [Memory.write]
    split
    · split
      · rfl
      · simp [Memory.read, Ne.symm h]
    · split
      · rename_i hk
        have hne : k ≠ addr' := by omega
        split
        · simp [Memory.read, hne]
        · simp [Memory.read, Ne.symm h, hne]
      · simp only [Memory.read, ih]

/-- A read after a write to the same byte gives the value written (rule R68). -/
theorem read_write_same (m : Memory) (addr : Nat) (v : Byte) (hm : m.wf = true) :
    (m.write addr v).read addr = v := by
  induction m with
  | nil =>
    by_cases hv : v = Memory.background
    · simp [Memory.write, hv, Memory.read]
    · simp [Memory.write, hv, Memory.read]
  | cons p m ih =>
    obtain ⟨k, w⟩ := p
    simp only [Memory.write]
    split
    · rename_i hlt
      split
      · rename_i hv
        have hne : k ≠ addr := by omega
        simp only [Memory.read, hne, if_false]
        rw [hv]
        exact read_tail_of_le hm (by omega)
      · simp [Memory.read]
    · split
      · rename_i hk
        split
        · rename_i hv
          rw [hv]
          exact read_tail_of_le hm (by omega)
        · simp [Memory.read]
      · rename_i hne
        have hne' : k ≠ addr := Ne.symm hne
        simp only [Memory.read, hne', if_false]
        exact ih (wf_tail hm)

/-- Read after write, both cases in one equation. -/
theorem read_write (m : Memory) (addr addr' : Nat) (v : Byte) (hm : m.wf = true) :
    (m.write addr v).read addr' = if addr' = addr then v else m.read addr' := by
  split
  · rename_i h; rw [h]; exact read_write_same m addr v hm
  · rename_i h; exact read_write_ne m v h

/-- The first address of a written memory is the written one or the old first. -/
theorem write_head {m : Memory} {addr : Nat} {v : Byte} {k : Nat} (hm : m.wf = true)
    (ha : k < addr) (hk : ∀ k' v' m', m = (k', v') :: m' → k < k') :
    ∀ k' v' m', m.write addr v = (k', v') :: m' → k < k' := by
  intro k' v' m' h
  cases m with
  | nil =>
    simp only [Memory.write] at h
    split at h
    · simp at h
    · simp at h; omega
  | cons p m =>
    obtain ⟨k1, w⟩ := p
    have h1 := hk k1 w m rfl
    simp only [Memory.write] at h
    split at h
    · split at h
      · simp at h; omega
      · simp at h; omega
    · split at h
      · split at h
        · subst h
          simp [Memory.wf] at hm
          omega
        · simp at h; omega
      · simp at h; omega

/-- A write keeps the canonical form. -/
theorem write_wf (m : Memory) (addr : Nat) (v : Byte) (hm : m.wf = true) :
    (m.write addr v).wf = true := by
  induction m with
  | nil =>
    simp only [Memory.write]
    split
    · rfl
    · rename_i hv; simp [Memory.wf, hv]
  | cons p m ih =>
    obtain ⟨k, w⟩ := p
    simp only [Memory.write]
    split
    · rename_i hlt
      split
      · exact hm
      · rename_i hv
        exact wf_cons hv hm (by intro k' v' m' h; simp at h; omega)
    · split
      · rename_i hk
        split
        · exact wf_tail hm
        · rename_i hv
          refine wf_cons hv (wf_tail hm) ?_
          intro k' v' m' h
          subst h
          simp [Memory.wf] at hm
          omega
      · refine wf_cons (wf_head hm) (ih (wf_tail hm)) ?_
        refine write_head (wf_tail hm) (by omega) ?_
        intro k' v' m' h
        subst h
        simp [Memory.wf] at hm
        omega

/-- A write of an address below `n` keeps memory below `n`. -/
theorem write_below (m : Memory) {addr n : Nat} (v : Byte) (ha : addr < n)
    (hm : Memory.below n m = true) : Memory.below n (m.write addr v) = true := by
  induction m with
  | nil =>
    simp only [Memory.write]
    split
    · rfl
    · simp [Memory.below, ha]
  | cons p m ih =>
    obtain ⟨k, w⟩ := p
    simp only [Memory.below, Bool.and_eq_true, decide_eq_true_eq] at hm
    simp only [Memory.write]
    split
    · split
      · simp [Memory.below, hm]
      · simp [Memory.below, hm, ha]
    · split
      · split
        · exact hm.2
        · simp [Memory.below, hm, ha]
      · simp [Memory.below, hm.1, ih hm.2]

/-- Canonical memories that read alike are equal data. -/
theorem ext {m m' : Memory} (hm : m.wf = true) (hm' : m'.wf = true)
    (h : ∀ addr, m.read addr = m'.read addr) : m = m' := by
  induction m generalizing m' with
  | nil =>
    cases m' with
    | nil => rfl
    | cons p t =>
      obtain ⟨k, v⟩ := p
      have hk := h k
      simp [Memory.read] at hk
      exact absurd hk.symm (wf_head hm')
  | cons p t ih =>
    obtain ⟨k, v⟩ := p
    cases m' with
    | nil =>
      have hk := h k
      simp [Memory.read] at hk
      exact absurd hk (wf_head hm)
    | cons p' t' =>
      obtain ⟨k', v'⟩ := p'
      have hkk : k = k' := by
        rcases Nat.lt_trichotomy k k' with hlt | heq | hgt
        · have hk := h k
          have hne : k' ≠ k := by omega
          simp only [Memory.read, if_true, hne, if_false] at hk
          rw [read_tail_of_le hm' (by omega)] at hk
          exact absurd hk (wf_head hm)
        · exact heq
        · have hk := h k'
          have hne : k ≠ k' := by omega
          simp only [Memory.read, if_true, hne, if_false] at hk
          rw [read_tail_of_le hm (by omega)] at hk
          exact absurd hk.symm (wf_head hm')
      subst hkk
      have hv : v = v' := by simpa [Memory.read] using h k
      subst hv
      have ht : t = t' := by
        refine ih (wf_tail hm) (wf_tail hm') fun addr => ?_
        by_cases hka : k = addr
        · subst hka
          rw [read_tail_of_le hm (Nat.le_refl _), read_tail_of_le hm' (Nat.le_refl _)]
        · have := h addr
          simpa [Memory.read, hka] using this
      rw [ht]

/-! Free bytes -/

/-- Forgetting a range keeps the canonical form. -/
theorem forget_wf (d lo len : Nat) (m : Memory) (hm : m.wf = true) :
    (Memory.forget d lo len m).wf = true := by
  induction len with
  | zero => exact hm
  | succ n ih => exact write_wf _ _ _ ih

/-- Forgetting a range leaves every byte outside it alone. -/
theorem read_forget_outside (d lo len : Nat) (m : Memory) {addr : Nat}
    (h : addr < lo ∨ lo + len ≤ addr) : (Memory.forget d lo len m).read addr = m.read addr := by
  induction len with
  | zero => rfl
  | succ n ih =>
    rw [Memory.forget, read_write_ne _ _ (by omega)]
    exact ih (by omega)

/-- Forgetting a range below `n` keeps memory below `n`. -/
theorem forget_below (d lo len : Nat) (m : Memory) {n : Nat} (h : lo + len ≤ n)
    (hm : Memory.below n m = true) : Memory.below n (Memory.forget d lo len m) = true := by
  induction len with
  | zero => exact hm
  | succ k ih => exact write_below _ _ (by omega) (ih (by omega))

end Sys2Proof.Machine.Memory
end

