-- ==== Sys2Proof/Laws/State.lean ====
section
/-! SUPPORT. One lemma per field per named update of State, true by rfl, so that no proof unfolds a record update. -/

namespace Sys2Proof.Machine.State

/-! `writeByte` -/

@[simp] theorem writeByte_params (s : State) (addr : Nat) (v : Byte) :
    (s.writeByte addr v).params = s.params := rfl
@[simp] theorem writeByte_base (s : State) (addr : Nat) (v : Byte) :
    (s.writeByte addr v).base = s.base := rfl
@[simp] theorem writeByte_nrows (s : State) (addr : Nat) (v : Byte) :
    (s.writeByte addr v).nrows = s.nrows := rfl
@[simp] theorem writeByte_rowlen (s : State) (addr : Nat) (v : Byte) :
    (s.writeByte addr v).rowlen = s.rowlen := rfl
@[simp] theorem writeByte_bpp (s : State) (addr : Nat) (v : Byte) : (s.writeByte addr v).bpp = s.bpp := rfl
@[simp] theorem writeByte_written (s : State) (addr : Nat) (v : Byte) :
    (s.writeByte addr v).written = s.written := rfl
@[simp] theorem writeByte_status (s : State) (addr : Nat) (v : Byte) :
    (s.writeByte addr v).status = s.status := rfl
@[simp] theorem writeByte_cause (s : State) (addr : Nat) (v : Byte) :
    (s.writeByte addr v).cause = s.cause := rfl
@[simp] theorem writeByte_sel (s : State) (addr : Nat) (v : Byte) : (s.writeByte addr v).sel = s.sel := rfl
@[simp] theorem writeByte_row (s : State) (addr : Nat) (v : Byte) : (s.writeByte addr v).row = s.row := rfl
@[simp] theorem writeByte_grp (s : State) (addr : Nat) (v : Byte) : (s.writeByte addr v).grp = s.grp := rfl
@[simp] theorem writeByte_phase (s : State) (addr : Nat) (v : Byte) :
    (s.writeByte addr v).phase = s.phase := rfl
@[simp] theorem writeByte_op (s : State) (addr : Nat) (v : Byte) : (s.writeByte addr v).op = s.op := rfl
@[simp] theorem writeByte_prev (s : State) (addr : Nat) (v : Byte) :
    (s.writeByte addr v).prev = s.prev := rfl
@[simp] theorem writeByte_prevValid (s : State) (addr : Nat) (v : Byte) :
    (s.writeByte addr v).prevValid = s.prevValid := rfl
@[simp] theorem writeByte_a (s : State) (addr : Nat) (v : Byte) : (s.writeByte addr v).a = s.a := rfl
@[simp] theorem writeByte_b (s : State) (addr : Nat) (v : Byte) : (s.writeByte addr v).b = s.b := rfl
@[simp] theorem writeByte_c (s : State) (addr : Nat) (v : Byte) : (s.writeByte addr v).c = s.c := rfl
@[simp] theorem writeByte_f (s : State) (addr : Nat) (v : Byte) : (s.writeByte addr v).f = s.f := rfl
@[simp] theorem writeByte_x (s : State) (addr : Nat) (v : Byte) : (s.writeByte addr v).x = s.x := rfl
@[simp] theorem writeByte_mem (s : State) (addr : Nat) (v : Byte) :
    (s.writeByte addr v).mem = s.mem.write (s.wrap addr) v := rfl
@[simp] theorem writeByte_host (s : State) (addr : Nat) (v : Byte) :
    (s.writeByte addr v).host = s.host := rfl
@[simp] theorem writeByte_readData (s : State) (addr : Nat) (v : Byte) :
    (s.writeByte addr v).readData = s.readData := rfl
@[simp] theorem writeByte_draws (s : State) (addr : Nat) (v : Byte) :
    (s.writeByte addr v).draws = s.draws := rfl

/-! `storeGroup` -/

@[simp] theorem storeGroup_params (s : State) (addr : Nat) (r : Lanes Byte) :
    (s.storeGroup addr r).params = s.params := rfl
@[simp] theorem storeGroup_base (s : State) (addr : Nat) (r : Lanes Byte) :
    (s.storeGroup addr r).base = s.base := rfl
@[simp] theorem storeGroup_nrows (s : State) (addr : Nat) (r : Lanes Byte) :
    (s.storeGroup addr r).nrows = s.nrows := rfl
@[simp] theorem storeGroup_rowlen (s : State) (addr : Nat) (r : Lanes Byte) :
    (s.storeGroup addr r).rowlen = s.rowlen := rfl
@[simp] theorem storeGroup_bpp (s : State) (addr : Nat) (r : Lanes Byte) :
    (s.storeGroup addr r).bpp = s.bpp := rfl
@[simp] theorem storeGroup_written (s : State) (addr : Nat) (r : Lanes Byte) :
    (s.storeGroup addr r).written = s.written := rfl
@[simp] theorem storeGroup_status (s : State) (addr : Nat) (r : Lanes Byte) :
    (s.storeGroup addr r).status = s.status := rfl
@[simp] theorem storeGroup_cause (s : State) (addr : Nat) (r : Lanes Byte) :
    (s.storeGroup addr r).cause = s.cause := rfl
@[simp] theorem storeGroup_sel (s : State) (addr : Nat) (r : Lanes Byte) :
    (s.storeGroup addr r).sel = s.sel := rfl
@[simp] theorem storeGroup_row (s : State) (addr : Nat) (r : Lanes Byte) :
    (s.storeGroup addr r).row = s.row := rfl
@[simp] theorem storeGroup_grp (s : State) (addr : Nat) (r : Lanes Byte) :
    (s.storeGroup addr r).grp = s.grp := rfl
@[simp] theorem storeGroup_phase (s : State) (addr : Nat) (r : Lanes Byte) :
    (s.storeGroup addr r).phase = s.phase := rfl
@[simp] theorem storeGroup_op (s : State) (addr : Nat) (r : Lanes Byte) :
    (s.storeGroup addr r).op = s.op := rfl
@[simp] theorem storeGroup_prev (s : State) (addr : Nat) (r : Lanes Byte) :
    (s.storeGroup addr r).prev = s.prev := rfl
@[simp] theorem storeGroup_prevValid (s : State) (addr : Nat) (r : Lanes Byte) :
    (s.storeGroup addr r).prevValid = s.prevValid := rfl
@[simp] theorem storeGroup_a (s : State) (addr : Nat) (r : Lanes Byte) :
    (s.storeGroup addr r).a = s.a := rfl
@[simp] theorem storeGroup_b (s : State) (addr : Nat) (r : Lanes Byte) :
    (s.storeGroup addr r).b = s.b := rfl
@[simp] theorem storeGroup_c (s : State) (addr : Nat) (r : Lanes Byte) :
    (s.storeGroup addr r).c = s.c := rfl
@[simp] theorem storeGroup_f (s : State) (addr : Nat) (r : Lanes Byte) :
    (s.storeGroup addr r).f = s.f := rfl
@[simp] theorem storeGroup_x (s : State) (addr : Nat) (r : Lanes Byte) :
    (s.storeGroup addr r).x = s.x := rfl
@[simp] theorem storeGroup_mem (s : State) (addr : Nat) (r : Lanes Byte) :
    (s.storeGroup addr r).mem = Memory.storeLanes (fun k => s.wrap (addr + k)) s.bpp.toNat r laneIndices s.mem := rfl
@[simp] theorem storeGroup_host (s : State) (addr : Nat) (r : Lanes Byte) :
    (s.storeGroup addr r).host = s.host := rfl
@[simp] theorem storeGroup_readData (s : State) (addr : Nat) (r : Lanes Byte) :
    (s.storeGroup addr r).readData = s.readData := rfl
@[simp] theorem storeGroup_draws (s : State) (addr : Nat) (r : Lanes Byte) :
    (s.storeGroup addr r).draws = s.draws := rfl

/-! `rowStart` -/

@[simp] theorem rowStart_params (s : State) : s.rowStart.params = s.params := rfl
@[simp] theorem rowStart_base (s : State) : s.rowStart.base = s.base := rfl
@[simp] theorem rowStart_nrows (s : State) : s.rowStart.nrows = s.nrows := rfl
@[simp] theorem rowStart_rowlen (s : State) : s.rowStart.rowlen = s.rowlen := rfl
@[simp] theorem rowStart_bpp (s : State) : s.rowStart.bpp = s.bpp := rfl
@[simp] theorem rowStart_written (s : State) : s.rowStart.written = s.written := rfl
@[simp] theorem rowStart_status (s : State) : s.rowStart.status = s.status := rfl
@[simp] theorem rowStart_cause (s : State) : s.rowStart.cause = s.cause := rfl
@[simp] theorem rowStart_sel (s : State) : s.rowStart.sel = s.sel := rfl
@[simp] theorem rowStart_row (s : State) : s.rowStart.row = s.row := rfl
@[simp] theorem rowStart_grp (s : State) : s.rowStart.grp = 0 := rfl
@[simp] theorem rowStart_phase (s : State) : s.rowStart.phase = s.phase := rfl
@[simp] theorem rowStart_op (s : State) : s.rowStart.op = s.op := rfl
@[simp] theorem rowStart_prev (s : State) : s.rowStart.prev = s.prev := rfl
@[simp] theorem rowStart_prevValid (s : State) : s.rowStart.prevValid = s.prevValid := rfl
@[simp] theorem rowStart_a (s : State) : s.rowStart.a = zeroGroup := rfl
@[simp] theorem rowStart_b (s : State) : s.rowStart.b = s.b := rfl
@[simp] theorem rowStart_c (s : State) : s.rowStart.c = zeroGroup := rfl
@[simp] theorem rowStart_f (s : State) : s.rowStart.f = s.f := rfl
@[simp] theorem rowStart_x (s : State) : s.rowStart.x = s.x := rfl
@[simp] theorem rowStart_mem (s : State) : s.rowStart.mem = s.mem := rfl
@[simp] theorem rowStart_host (s : State) : s.rowStart.host = s.host := rfl
@[simp] theorem rowStart_readData (s : State) : s.rowStart.readData = s.readData := rfl
@[simp] theorem rowStart_draws (s : State) : s.rowStart.draws = s.draws := rfl

/-! `beginRow` -/

@[simp] theorem beginRow_params (s : State) (op : Op) : (s.beginRow op).params = s.params := rfl
@[simp] theorem beginRow_base (s : State) (op : Op) : (s.beginRow op).base = s.base := rfl
@[simp] theorem beginRow_nrows (s : State) (op : Op) : (s.beginRow op).nrows = s.nrows := rfl
@[simp] theorem beginRow_rowlen (s : State) (op : Op) : (s.beginRow op).rowlen = s.rowlen := rfl
@[simp] theorem beginRow_bpp (s : State) (op : Op) : (s.beginRow op).bpp = s.bpp := rfl
@[simp] theorem beginRow_written (s : State) (op : Op) : (s.beginRow op).written = s.written := rfl
@[simp] theorem beginRow_status (s : State) (op : Op) : (s.beginRow op).status = s.status := rfl
@[simp] theorem beginRow_cause (s : State) (op : Op) : (s.beginRow op).cause = s.cause := rfl
@[simp] theorem beginRow_sel (s : State) (op : Op) : (s.beginRow op).sel = s.sel := rfl
@[simp] theorem beginRow_row (s : State) (op : Op) : (s.beginRow op).row = s.row := rfl
@[simp] theorem beginRow_grp (s : State) (op : Op) : (s.beginRow op).grp = 0 := rfl
@[simp] theorem beginRow_phase (s : State) (op : Op) : (s.beginRow op).phase = .group := rfl
@[simp] theorem beginRow_op (s : State) (op : Op) : (s.beginRow op).op = op := rfl
@[simp] theorem beginRow_prev (s : State) (op : Op) : (s.beginRow op).prev = s.prev := rfl
@[simp] theorem beginRow_prevValid (s : State) (op : Op) : (s.beginRow op).prevValid = s.prevValid := rfl
@[simp] theorem beginRow_a (s : State) (op : Op) : (s.beginRow op).a = zeroGroup := rfl
@[simp] theorem beginRow_b (s : State) (op : Op) : (s.beginRow op).b = s.b := rfl
@[simp] theorem beginRow_c (s : State) (op : Op) : (s.beginRow op).c = zeroGroup := rfl
@[simp] theorem beginRow_f (s : State) (op : Op) : (s.beginRow op).f = s.f := rfl
@[simp] theorem beginRow_x (s : State) (op : Op) : (s.beginRow op).x = s.x := rfl
@[simp] theorem beginRow_mem (s : State) (op : Op) : (s.beginRow op).mem = s.mem := rfl
@[simp] theorem beginRow_host (s : State) (op : Op) : (s.beginRow op).host = s.host := rfl
@[simp] theorem beginRow_readData (s : State) (op : Op) : (s.beginRow op).readData = s.readData := rfl
@[simp] theorem beginRow_draws (s : State) (op : Op) : (s.beginRow op).draws = s.draws := rfl

/-! `groupStep` -/

@[simp] theorem groupStep_params (s : State) (op : Filter) : (s.groupStep op).params = s.params := rfl
@[simp] theorem groupStep_base (s : State) (op : Filter) : (s.groupStep op).base = s.base := rfl
@[simp] theorem groupStep_nrows (s : State) (op : Filter) : (s.groupStep op).nrows = s.nrows := rfl
@[simp] theorem groupStep_rowlen (s : State) (op : Filter) : (s.groupStep op).rowlen = s.rowlen := rfl
@[simp] theorem groupStep_bpp (s : State) (op : Filter) : (s.groupStep op).bpp = s.bpp := rfl
@[simp] theorem groupStep_written (s : State) (op : Filter) : (s.groupStep op).written = s.written := rfl
@[simp] theorem groupStep_status (s : State) (op : Filter) : (s.groupStep op).status = s.status := rfl
@[simp] theorem groupStep_cause (s : State) (op : Filter) : (s.groupStep op).cause = s.cause := rfl
@[simp] theorem groupStep_sel (s : State) (op : Filter) : (s.groupStep op).sel = s.sel := rfl
@[simp] theorem groupStep_row (s : State) (op : Filter) : (s.groupStep op).row = s.row := rfl
@[simp] theorem groupStep_grp (s : State) (op : Filter) : (s.groupStep op).grp = s.grp := rfl
@[simp] theorem groupStep_phase (s : State) (op : Filter) : (s.groupStep op).phase = s.phase := rfl
@[simp] theorem groupStep_op (s : State) (op : Filter) : (s.groupStep op).op = s.op := rfl
@[simp] theorem groupStep_prev (s : State) (op : Filter) : (s.groupStep op).prev = s.prev := rfl
@[simp] theorem groupStep_prevValid (s : State) (op : Filter) :
    (s.groupStep op).prevValid = s.prevValid := rfl
@[simp] theorem groupStep_a (s : State) (op : Filter) : (s.groupStep op).a = s.reconstructed op := rfl
@[simp] theorem groupStep_b (s : State) (op : Filter) : (s.groupStep op).b = s.aboveGroup op := rfl
@[simp] theorem groupStep_c (s : State) (op : Filter) : (s.groupStep op).c = s.aboveGroup op := rfl
@[simp] theorem groupStep_f (s : State) (op : Filter) : (s.groupStep op).f = s.loadGroup s.grpAddr := rfl
@[simp] theorem groupStep_x (s : State) (op : Filter) : (s.groupStep op).x = s.reconstructed op := rfl
@[simp] theorem groupStep_mem (s : State) (op : Filter) :
    (s.groupStep op).mem = (s.storeGroup s.grpAddr (s.reconstructed op)).mem := rfl
@[simp] theorem groupStep_host (s : State) (op : Filter) : (s.groupStep op).host = s.host := rfl
@[simp] theorem groupStep_readData (s : State) (op : Filter) :
    (s.groupStep op).readData = s.readData := rfl
@[simp] theorem groupStep_draws (s : State) (op : Filter) : (s.groupStep op).draws = s.draws := rfl

/-! `advanceGroup` -/

@[simp] theorem advanceGroup_params (s : State) (op : Filter) :
    (s.advanceGroup op).params = s.params := rfl
@[simp] theorem advanceGroup_base (s : State) (op : Filter) : (s.advanceGroup op).base = s.base := rfl
@[simp] theorem advanceGroup_nrows (s : State) (op : Filter) : (s.advanceGroup op).nrows = s.nrows := rfl
@[simp] theorem advanceGroup_rowlen (s : State) (op : Filter) :
    (s.advanceGroup op).rowlen = s.rowlen := rfl
@[simp] theorem advanceGroup_bpp (s : State) (op : Filter) : (s.advanceGroup op).bpp = s.bpp := rfl
@[simp] theorem advanceGroup_written (s : State) (op : Filter) :
    (s.advanceGroup op).written = s.written := rfl
@[simp] theorem advanceGroup_status (s : State) (op : Filter) :
    (s.advanceGroup op).status = s.status := rfl
@[simp] theorem advanceGroup_cause (s : State) (op : Filter) : (s.advanceGroup op).cause = s.cause := rfl
@[simp] theorem advanceGroup_sel (s : State) (op : Filter) : (s.advanceGroup op).sel = s.sel := rfl
@[simp] theorem advanceGroup_row (s : State) (op : Filter) : (s.advanceGroup op).row = s.row := rfl
@[simp] theorem advanceGroup_grp (s : State) (op : Filter) :
    (s.advanceGroup op).grp = s.wrap (s.grp + 1) := rfl
@[simp] theorem advanceGroup_phase (s : State) (op : Filter) : (s.advanceGroup op).phase = s.phase := rfl
@[simp] theorem advanceGroup_op (s : State) (op : Filter) : (s.advanceGroup op).op = s.op := rfl
@[simp] theorem advanceGroup_prev (s : State) (op : Filter) : (s.advanceGroup op).prev = s.prev := rfl
@[simp] theorem advanceGroup_prevValid (s : State) (op : Filter) :
    (s.advanceGroup op).prevValid = s.prevValid := rfl
@[simp] theorem advanceGroup_a (s : State) (op : Filter) :
    (s.advanceGroup op).a = s.reconstructed op := rfl
@[simp] theorem advanceGroup_b (s : State) (op : Filter) : (s.advanceGroup op).b = s.aboveGroup op := rfl
@[simp] theorem advanceGroup_c (s : State) (op : Filter) : (s.advanceGroup op).c = s.aboveGroup op := rfl
@[simp] theorem advanceGroup_f (s : State) (op : Filter) :
    (s.advanceGroup op).f = s.loadGroup s.grpAddr := rfl
@[simp] theorem advanceGroup_x (s : State) (op : Filter) :
    (s.advanceGroup op).x = s.reconstructed op := rfl
@[simp] theorem advanceGroup_mem (s : State) (op : Filter) :
    (s.advanceGroup op).mem = (s.storeGroup s.grpAddr (s.reconstructed op)).mem := rfl
@[simp] theorem advanceGroup_host (s : State) (op : Filter) : (s.advanceGroup op).host = s.host := rfl
@[simp] theorem advanceGroup_readData (s : State) (op : Filter) :
    (s.advanceGroup op).readData = s.readData := rfl
@[simp] theorem advanceGroup_draws (s : State) (op : Filter) : (s.advanceGroup op).draws = s.draws := rfl

/-! `retireRow` -/

@[simp] theorem retireRow_params (s : State) : s.retireRow.params = s.params := rfl
@[simp] theorem retireRow_base (s : State) : s.retireRow.base = s.base := rfl
@[simp] theorem retireRow_nrows (s : State) : s.retireRow.nrows = s.nrows := rfl
@[simp] theorem retireRow_rowlen (s : State) : s.retireRow.rowlen = s.rowlen := rfl
@[simp] theorem retireRow_bpp (s : State) : s.retireRow.bpp = s.bpp := rfl
@[simp] theorem retireRow_written (s : State) : s.retireRow.written = s.written := rfl
@[simp] theorem retireRow_status (s : State) : s.retireRow.status = s.status := rfl
@[simp] theorem retireRow_cause (s : State) : s.retireRow.cause = s.cause := rfl
@[simp] theorem retireRow_sel (s : State) : s.retireRow.sel = s.sel := rfl
@[simp] theorem retireRow_row (s : State) : s.retireRow.row = s.wrap (s.row + 1) := rfl
@[simp] theorem retireRow_grp (s : State) : s.retireRow.grp = s.grp := rfl
@[simp] theorem retireRow_phase (s : State) : s.retireRow.phase = .fetch := rfl
@[simp] theorem retireRow_op (s : State) : s.retireRow.op = s.op := rfl
@[simp] theorem retireRow_prev (s : State) : s.retireRow.prev = s.payAddr := rfl
@[simp] theorem retireRow_prevValid (s : State) : s.retireRow.prevValid = true := rfl
@[simp] theorem retireRow_a (s : State) : s.retireRow.a = s.a := rfl
@[simp] theorem retireRow_b (s : State) : s.retireRow.b = s.b := rfl
@[simp] theorem retireRow_c (s : State) : s.retireRow.c = s.c := rfl
@[simp] theorem retireRow_f (s : State) : s.retireRow.f = s.f := rfl
@[simp] theorem retireRow_x (s : State) : s.retireRow.x = s.x := rfl
@[simp] theorem retireRow_mem (s : State) : s.retireRow.mem = s.mem.write (s.wrap s.tagAddr) 0 := rfl
@[simp] theorem retireRow_host (s : State) : s.retireRow.host = s.host := rfl
@[simp] theorem retireRow_readData (s : State) : s.retireRow.readData = s.readData := rfl
@[simp] theorem retireRow_draws (s : State) : s.retireRow.draws = s.draws := rfl

/-! `forgetInternals` -/

@[simp] theorem forgetInternals_params (s : State) : s.forgetInternals.params = s.params := rfl
@[simp] theorem forgetInternals_base (s : State) : s.forgetInternals.base = s.base := rfl
@[simp] theorem forgetInternals_nrows (s : State) : s.forgetInternals.nrows = s.nrows := rfl
@[simp] theorem forgetInternals_rowlen (s : State) : s.forgetInternals.rowlen = s.rowlen := rfl
@[simp] theorem forgetInternals_bpp (s : State) : s.forgetInternals.bpp = s.bpp := rfl
@[simp] theorem forgetInternals_written (s : State) : s.forgetInternals.written = s.written := rfl
@[simp] theorem forgetInternals_status (s : State) : s.forgetInternals.status = s.status := rfl
@[simp] theorem forgetInternals_cause (s : State) : s.forgetInternals.cause = s.cause := rfl
@[simp] theorem forgetInternals_sel (s : State) : s.forgetInternals.sel = s.sel := rfl
@[simp] theorem forgetInternals_row (s : State) :
    s.forgetInternals.row = s.wrap (Config.freeNat s.draws 0) := rfl
@[simp] theorem forgetInternals_grp (s : State) :
    s.forgetInternals.grp = s.wrap (Config.freeNat s.draws 1) := rfl
@[simp] theorem forgetInternals_phase (s : State) :
    s.forgetInternals.phase = Config.freePhase s.draws := rfl
@[simp] theorem forgetInternals_op (s : State) : s.forgetInternals.op = Config.freeOp s.draws := rfl
@[simp] theorem forgetInternals_prev (s : State) :
    s.forgetInternals.prev = s.wrap (Config.freeNat s.draws 2) := rfl
@[simp] theorem forgetInternals_prevValid (s : State) :
    s.forgetInternals.prevValid = Config.freeBit s.draws := rfl
@[simp] theorem forgetInternals_a (s : State) : s.forgetInternals.a = Config.freeGroup s.draws 0 := rfl
@[simp] theorem forgetInternals_b (s : State) : s.forgetInternals.b = Config.freeGroup s.draws 1 := rfl
@[simp] theorem forgetInternals_c (s : State) : s.forgetInternals.c = Config.freeGroup s.draws 2 := rfl
@[simp] theorem forgetInternals_f (s : State) : s.forgetInternals.f = Config.freeGroup s.draws 3 := rfl
@[simp] theorem forgetInternals_x (s : State) : s.forgetInternals.x = Config.freeGroup s.draws 4 := rfl
@[simp] theorem forgetInternals_mem (s : State) : s.forgetInternals.mem = s.mem := rfl
@[simp] theorem forgetInternals_host (s : State) : s.forgetInternals.host = s.host := rfl
@[simp] theorem forgetInternals_readData (s : State) : s.forgetInternals.readData = s.readData := rfl
@[simp] theorem forgetInternals_draws (s : State) : s.forgetInternals.draws = s.draws + 1 := rfl

/-! `forgetSel` -/

@[simp] theorem forgetSel_params (s : State) : s.forgetSel.params = s.params := rfl
@[simp] theorem forgetSel_base (s : State) : s.forgetSel.base = s.base := rfl
@[simp] theorem forgetSel_nrows (s : State) : s.forgetSel.nrows = s.nrows := rfl
@[simp] theorem forgetSel_rowlen (s : State) : s.forgetSel.rowlen = s.rowlen := rfl
@[simp] theorem forgetSel_bpp (s : State) : s.forgetSel.bpp = s.bpp := rfl
@[simp] theorem forgetSel_written (s : State) : s.forgetSel.written = s.written := rfl
@[simp] theorem forgetSel_status (s : State) : s.forgetSel.status = s.status := rfl
@[simp] theorem forgetSel_cause (s : State) : s.forgetSel.cause = s.cause := rfl
@[simp] theorem forgetSel_sel (s : State) : s.forgetSel.sel = Sel.ofFn (Config.freeKernel s.draws) := rfl
@[simp] theorem forgetSel_row (s : State) : s.forgetSel.row = s.row := rfl
@[simp] theorem forgetSel_grp (s : State) : s.forgetSel.grp = s.grp := rfl
@[simp] theorem forgetSel_phase (s : State) : s.forgetSel.phase = s.phase := rfl
@[simp] theorem forgetSel_op (s : State) : s.forgetSel.op = s.op := rfl
@[simp] theorem forgetSel_prev (s : State) : s.forgetSel.prev = s.prev := rfl
@[simp] theorem forgetSel_prevValid (s : State) : s.forgetSel.prevValid = s.prevValid := rfl
@[simp] theorem forgetSel_a (s : State) : s.forgetSel.a = s.a := rfl
@[simp] theorem forgetSel_b (s : State) : s.forgetSel.b = s.b := rfl
@[simp] theorem forgetSel_c (s : State) : s.forgetSel.c = s.c := rfl
@[simp] theorem forgetSel_f (s : State) : s.forgetSel.f = s.f := rfl
@[simp] theorem forgetSel_x (s : State) : s.forgetSel.x = s.x := rfl
@[simp] theorem forgetSel_mem (s : State) : s.forgetSel.mem = s.mem := rfl
@[simp] theorem forgetSel_host (s : State) : s.forgetSel.host = s.host := rfl
@[simp] theorem forgetSel_readData (s : State) : s.forgetSel.readData = s.readData := rfl
@[simp] theorem forgetSel_draws (s : State) : s.forgetSel.draws = s.draws := rfl

/-! `forgetBuffer` -/

@[simp] theorem forgetBuffer_params (s : State) : s.forgetBuffer.params = s.params := rfl
@[simp] theorem forgetBuffer_base (s : State) : s.forgetBuffer.base = s.base := rfl
@[simp] theorem forgetBuffer_nrows (s : State) : s.forgetBuffer.nrows = s.nrows := rfl
@[simp] theorem forgetBuffer_rowlen (s : State) : s.forgetBuffer.rowlen = s.rowlen := rfl
@[simp] theorem forgetBuffer_bpp (s : State) : s.forgetBuffer.bpp = s.bpp := rfl
@[simp] theorem forgetBuffer_written (s : State) : s.forgetBuffer.written = s.written := rfl
@[simp] theorem forgetBuffer_status (s : State) : s.forgetBuffer.status = s.status := rfl
@[simp] theorem forgetBuffer_cause (s : State) : s.forgetBuffer.cause = s.cause := rfl
@[simp] theorem forgetBuffer_sel (s : State) : s.forgetBuffer.sel = s.sel := rfl
@[simp] theorem forgetBuffer_row (s : State) : s.forgetBuffer.row = s.row := rfl
@[simp] theorem forgetBuffer_grp (s : State) : s.forgetBuffer.grp = s.grp := rfl
@[simp] theorem forgetBuffer_phase (s : State) : s.forgetBuffer.phase = s.phase := rfl
@[simp] theorem forgetBuffer_op (s : State) : s.forgetBuffer.op = s.op := rfl
@[simp] theorem forgetBuffer_prev (s : State) : s.forgetBuffer.prev = s.prev := rfl
@[simp] theorem forgetBuffer_prevValid (s : State) : s.forgetBuffer.prevValid = s.prevValid := rfl
@[simp] theorem forgetBuffer_a (s : State) : s.forgetBuffer.a = s.a := rfl
@[simp] theorem forgetBuffer_b (s : State) : s.forgetBuffer.b = s.b := rfl
@[simp] theorem forgetBuffer_c (s : State) : s.forgetBuffer.c = s.c := rfl
@[simp] theorem forgetBuffer_f (s : State) : s.forgetBuffer.f = s.f := rfl
@[simp] theorem forgetBuffer_x (s : State) : s.forgetBuffer.x = s.x := rfl
@[simp] theorem forgetBuffer_mem (s : State) :
    s.forgetBuffer.mem = s.mem.forget s.draws s.base s.clippedLen := rfl
@[simp] theorem forgetBuffer_host (s : State) : s.forgetBuffer.host = s.host := rfl
@[simp] theorem forgetBuffer_readData (s : State) : s.forgetBuffer.readData = s.readData := rfl
@[simp] theorem forgetBuffer_draws (s : State) : s.forgetBuffer.draws = s.draws := rfl

/-! `complete` -/

@[simp] theorem complete_params (s : State) : s.complete.params = s.params := rfl
@[simp] theorem complete_base (s : State) : s.complete.base = s.base := rfl
@[simp] theorem complete_nrows (s : State) : s.complete.nrows = s.nrows := rfl
@[simp] theorem complete_rowlen (s : State) : s.complete.rowlen = s.rowlen := rfl
@[simp] theorem complete_bpp (s : State) : s.complete.bpp = s.bpp := rfl
@[simp] theorem complete_written (s : State) : s.complete.written = s.written := rfl
@[simp] theorem complete_status (s : State) : s.complete.status = .done := rfl
@[simp] theorem complete_cause (s : State) : s.complete.cause = s.cause := rfl
@[simp] theorem complete_sel (s : State) : s.complete.sel = s.sel := rfl
@[simp] theorem complete_row (s : State) : s.complete.row = s.wrap (Config.freeNat s.draws 0) := rfl
@[simp] theorem complete_grp (s : State) : s.complete.grp = s.wrap (Config.freeNat s.draws 1) := rfl
@[simp] theorem complete_phase (s : State) : s.complete.phase = Config.freePhase s.draws := rfl
@[simp] theorem complete_op (s : State) : s.complete.op = Config.freeOp s.draws := rfl
@[simp] theorem complete_prev (s : State) : s.complete.prev = s.wrap (Config.freeNat s.draws 2) := rfl
@[simp] theorem complete_prevValid (s : State) : s.complete.prevValid = Config.freeBit s.draws := rfl
@[simp] theorem complete_a (s : State) : s.complete.a = Config.freeGroup s.draws 0 := rfl
@[simp] theorem complete_b (s : State) : s.complete.b = Config.freeGroup s.draws 1 := rfl
@[simp] theorem complete_c (s : State) : s.complete.c = Config.freeGroup s.draws 2 := rfl
@[simp] theorem complete_f (s : State) : s.complete.f = Config.freeGroup s.draws 3 := rfl
@[simp] theorem complete_x (s : State) : s.complete.x = Config.freeGroup s.draws 4 := rfl
@[simp] theorem complete_mem (s : State) : s.complete.mem = s.mem := rfl
@[simp] theorem complete_host (s : State) : s.complete.host = s.host := rfl
@[simp] theorem complete_readData (s : State) : s.complete.readData = s.readData := rfl
@[simp] theorem complete_draws (s : State) : s.complete.draws = s.draws + 1 := rfl

/-! `raiseAbort` -/

@[simp] theorem raiseAbort_params (s : State) (cause : Cause) :
    (s.raiseAbort cause).params = s.params := rfl
@[simp] theorem raiseAbort_base (s : State) (cause : Cause) : (s.raiseAbort cause).base = s.base := rfl
@[simp] theorem raiseAbort_nrows (s : State) (cause : Cause) : (s.raiseAbort cause).nrows = s.nrows := rfl
@[simp] theorem raiseAbort_rowlen (s : State) (cause : Cause) :
    (s.raiseAbort cause).rowlen = s.rowlen := rfl
@[simp] theorem raiseAbort_bpp (s : State) (cause : Cause) : (s.raiseAbort cause).bpp = s.bpp := rfl
@[simp] theorem raiseAbort_written (s : State) (cause : Cause) :
    (s.raiseAbort cause).written = s.written := rfl
@[simp] theorem raiseAbort_status (s : State) (cause : Cause) :
    (s.raiseAbort cause).status = .aborted := rfl
@[simp] theorem raiseAbort_cause (s : State) (cause : Cause) :
    (s.raiseAbort cause).cause = causeCode cause := rfl
@[simp] theorem raiseAbort_sel (s : State) (cause : Cause) :
    (s.raiseAbort cause).sel = Sel.ofFn (Config.freeKernel s.draws) := rfl
@[simp] theorem raiseAbort_row (s : State) (cause : Cause) :
    (s.raiseAbort cause).row = s.wrap (Config.freeNat s.draws 0) := rfl
@[simp] theorem raiseAbort_grp (s : State) (cause : Cause) :
    (s.raiseAbort cause).grp = s.wrap (Config.freeNat s.draws 1) := rfl
@[simp] theorem raiseAbort_phase (s : State) (cause : Cause) :
    (s.raiseAbort cause).phase = Config.freePhase s.draws := rfl
@[simp] theorem raiseAbort_op (s : State) (cause : Cause) :
    (s.raiseAbort cause).op = Config.freeOp s.draws := rfl
@[simp] theorem raiseAbort_prev (s : State) (cause : Cause) :
    (s.raiseAbort cause).prev = s.wrap (Config.freeNat s.draws 2) := rfl
@[simp] theorem raiseAbort_prevValid (s : State) (cause : Cause) :
    (s.raiseAbort cause).prevValid = Config.freeBit s.draws := rfl
@[simp] theorem raiseAbort_a (s : State) (cause : Cause) :
    (s.raiseAbort cause).a = Config.freeGroup s.draws 0 := rfl
@[simp] theorem raiseAbort_b (s : State) (cause : Cause) :
    (s.raiseAbort cause).b = Config.freeGroup s.draws 1 := rfl
@[simp] theorem raiseAbort_c (s : State) (cause : Cause) :
    (s.raiseAbort cause).c = Config.freeGroup s.draws 2 := rfl
@[simp] theorem raiseAbort_f (s : State) (cause : Cause) :
    (s.raiseAbort cause).f = Config.freeGroup s.draws 3 := rfl
@[simp] theorem raiseAbort_x (s : State) (cause : Cause) :
    (s.raiseAbort cause).x = Config.freeGroup s.draws 4 := rfl
@[simp] theorem raiseAbort_mem (s : State) (cause : Cause) :
    (s.raiseAbort cause).mem = s.mem.forget s.draws s.base s.clippedLen := rfl
@[simp] theorem raiseAbort_host (s : State) (cause : Cause) : (s.raiseAbort cause).host = s.host := rfl
@[simp] theorem raiseAbort_readData (s : State) (cause : Cause) :
    (s.raiseAbort cause).readData = s.readData := rfl
@[simp] theorem raiseAbort_draws (s : State) (cause : Cause) :
    (s.raiseAbort cause).draws = s.draws + 1 := rfl

/-! `resetInput` -/

@[simp] theorem resetInput_params (s : State) : s.resetInput.params = s.params := rfl
@[simp] theorem resetInput_base (s : State) : s.resetInput.base = s.wrap (Config.freeNat s.draws 3) := rfl
@[simp] theorem resetInput_nrows (s : State) :
    s.resetInput.nrows = s.wrap (Config.freeNat s.draws 4) := rfl
@[simp] theorem resetInput_rowlen (s : State) :
    s.resetInput.rowlen = s.wrap (Config.freeNat s.draws 5) := rfl
@[simp] theorem resetInput_bpp (s : State) : s.resetInput.bpp = Config.freeBpp s.draws := rfl
@[simp] theorem resetInput_written (s : State) : s.resetInput.written = Written.none := rfl
@[simp] theorem resetInput_status (s : State) : s.resetInput.status = .idle := rfl
@[simp] theorem resetInput_cause (s : State) : s.resetInput.cause = 0 := rfl
@[simp] theorem resetInput_sel (s : State) : s.resetInput.sel = Sel.ofFn (Config.freeKernel s.draws) := rfl
@[simp] theorem resetInput_row (s : State) : s.resetInput.row = s.wrap (Config.freeNat s.draws 0) := rfl
@[simp] theorem resetInput_grp (s : State) : s.resetInput.grp = s.wrap (Config.freeNat s.draws 1) := rfl
@[simp] theorem resetInput_phase (s : State) : s.resetInput.phase = Config.freePhase s.draws := rfl
@[simp] theorem resetInput_op (s : State) : s.resetInput.op = Config.freeOp s.draws := rfl
@[simp] theorem resetInput_prev (s : State) : s.resetInput.prev = s.wrap (Config.freeNat s.draws 2) := rfl
@[simp] theorem resetInput_prevValid (s : State) : s.resetInput.prevValid = Config.freeBit s.draws := rfl
@[simp] theorem resetInput_a (s : State) : s.resetInput.a = Config.freeGroup s.draws 0 := rfl
@[simp] theorem resetInput_b (s : State) : s.resetInput.b = Config.freeGroup s.draws 1 := rfl
@[simp] theorem resetInput_c (s : State) : s.resetInput.c = Config.freeGroup s.draws 2 := rfl
@[simp] theorem resetInput_f (s : State) : s.resetInput.f = Config.freeGroup s.draws 3 := rfl
@[simp] theorem resetInput_x (s : State) : s.resetInput.x = Config.freeGroup s.draws 4 := rfl
@[simp] theorem resetInput_mem (s : State) :
    s.resetInput.mem = if s.status = .busy then s.forgetBuffer.mem else s.mem := rfl
@[simp] theorem resetInput_host (s : State) : s.resetInput.host = s.host := rfl
@[simp] theorem resetInput_readData (s : State) : s.resetInput.readData = s.readData := rfl
@[simp] theorem resetInput_draws (s : State) : s.resetInput.draws = s.draws + 1 := rfl

end Sys2Proof.Machine.State
end

