-- ==== Sys2Proof/Laws/Ops.lean ====
section
/-! SUPPORT. The laws of the shared operations: wrapped addresses, group stores, the free values, the abort, and
memory's form kept by each. -/

namespace Sys2Proof.Machine

namespace State

/-- An AW-bit value is below `2^AW`. -/
theorem wrap_lt (s : State) (n : Nat) : s.wrap n < 2 ^ s.params.aw :=
  Nat.mod_lt _ (Nat.two_pow_pos _)

/-- A value that fits does not wrap. -/
theorem wrap_of_lt {s : State} {n : Nat} (h : n < 2 ^ s.params.aw) : s.wrap n = n :=
  Nat.mod_eq_of_lt h

/-- Wrapping twice is wrapping once. -/
@[simp] theorem wrap_wrap (s : State) (n : Nat) : s.wrap (s.wrap n) = s.wrap n :=
  Nat.mod_mod _ _

/-- Wrapping looks at the address width only. -/
theorem wrap_congr {s t : State} (h : t.params = s.params) (n : Nat) : t.wrap n = s.wrap n := by
  simp [State.wrap, h]

/-- The tag's address is an AW-bit value. -/
@[simp] theorem wrap_tagAddr (s : State) : s.wrap s.tagAddr = s.tagAddr := wrap_wrap _ _

/-- The tag the fetch step reads. -/
theorem fetchTag_eq (s : State) : s.fetchTag = s.mem.read s.tagAddr := by
  simp [State.fetchTag, State.readByte]

end State

/-- A group store keeps the canonical form. -/
theorem storeLanes_wf (addrOf : Nat → Nat) (n : Nat) (r : Lanes Byte) (ks : List (Fin 8)) (m : Memory)
    (hm : m.wf = true) : (Memory.storeLanes addrOf n r ks m).wf = true := by
  induction ks generalizing m with
  | nil => exact hm
  | cons k ks ih =>
    apply ih
    split
    · exact Memory.write_wf _ _ _ hm
    · exact hm

/-- A group store to addresses below `N` keeps memory below `N`. -/
theorem storeLanes_below {addrOf : Nat → Nat} {N : Nat} (ha : ∀ k, addrOf k < N) (n : Nat)
    (r : Lanes Byte) (ks : List (Fin 8)) (m : Memory) (hm : m.below N = true) :
    (Memory.storeLanes addrOf n r ks m).below N = true := by
  induction ks generalizing m with
  | nil => exact hm
  | cons k ks ih =>
    apply ih
    split
    · exact Memory.write_below _ _ (ha _) hm
    · exact hm

/-- A group store leaves alone every byte that is no stored lane's. -/
theorem read_storeLanes_outside (addrOf : Nat → Nat) (n : Nat) (r : Lanes Byte) (ks : List (Fin 8))
    (m : Memory) {addr : Nat} (h : ∀ k ∈ ks, k.val < n → addr ≠ addrOf k.val) :
    (Memory.storeLanes addrOf n r ks m).read addr = m.read addr := by
  induction ks generalizing m with
  | nil => rfl
  | cons k ks ih =>
    rw [Memory.storeLanes, ih _ fun k' hk' => h k' (List.mem_cons_of_mem _ hk')]
    split
    · exact Memory.read_write_ne _ _ (h k List.mem_cons_self ‹_›)
    · rfl

namespace State

/-- The clipped buffer ends inside the address space. -/
theorem clipped_end_le {s : State} (h : s.base < 2 ^ s.params.aw) :
    s.base + s.clippedLen ≤ 2 ^ s.params.aw := by
  simp only [State.clippedLen]
  omega

/-- Forgetting the buffer leaves every byte outside it alone (rules R227, R252). -/
theorem read_forgetBuffer_outside (s : State) {addr : Nat} (h : s.inBuffer addr = false) :
    s.forgetBuffer.mem.read addr = s.mem.read addr := by
  rw [forgetBuffer_mem]
  apply Memory.read_forget_outside
  simp only [State.inBuffer, Bool.and_eq_false_iff, decide_eq_false_iff_not] at h
  simp only [State.clippedLen]
  omega

/-- Forgetting the buffer keeps the canonical form. -/
theorem forgetBuffer_wf (s : State) (h : s.mem.wf = true) : s.forgetBuffer.mem.wf = true := by
  rw [forgetBuffer_mem]
  exact Memory.forget_wf _ _ _ _ h

/-- Forgetting the buffer keeps memory inside the address space. -/
theorem forgetBuffer_below (s : State) (hb : s.base < 2 ^ s.params.aw)
    (h : s.mem.below (2 ^ s.params.aw) = true) :
    s.forgetBuffer.mem.below (2 ^ s.params.aw) = true := by
  rw [forgetBuffer_mem]
  exact Memory.forget_below _ _ _ _ (clipped_end_le hb) h

/-- The codes an abort can leave in `CAUSE` (rule R220). -/
theorem causeCode_range (c : Cause) : 1 ≤ (causeCode c).toNat ∧ (causeCode c).toNat ≤ 5 := by
  cases c <;> decide

/-- A configuration write touches the four configuration registers and their marks only. -/
theorem writeConfig_frame (s : State) (r : CReg) (v : Nat) :
    s.writeConfig r v = { s with
      base := (s.writeConfig r v).base, nrows := (s.writeConfig r v).nrows,
      rowlen := (s.writeConfig r v).rowlen, bpp := (s.writeConfig r v).bpp,
      written := (s.writeConfig r v).written } := by
  unfold State.writeConfig
  split
  · rfl
  · cases r <;> rfl

end State

end Sys2Proof.Machine
end

