-- ==== Sys2Proof/Laws/PerInstr.lean ====
section
/-! SUPPORT. Statements for all instructions, one lemma a constructor. -/

namespace Sys2Proof.Laws.ByteMatchesTable

/-- The mask and the pattern of an instruction's row in `opcode_table.json` (rule R101). -/
def tableRow : Instr → Byte × Byte
  | .noneTag => (0xFF, 0x00)
  | .sub => (0xFF, 0x01)
  | .up => (0xFF, 0x02)
  | .upFirst => (0xFF, 0x02)
  | .avg => (0xFF, 0x03)
  | .avgTop => (0xFF, 0x03)
  | .paeth => (0xFF, 0x04)
  | .paethFirst => (0xFF, 0x04)
  | .rsvd05 => (0xFF, 0x05)
  | .rsvd06to07 _ => (0xFE, 0x06)
  | .rsvd08to0F _ => (0xF8, 0x08)
  | .rsvd10to1F _ => (0xF0, 0x10)
  | .rsvd20to3F _ => (0xE0, 0x20)
  | .rsvd40to7F _ => (0xC0, 0x40)
  | .rsvd80toFF _ => (0x80, 0x80)
  | .start => (0x01, 0x01)

/-- The byte of a well-formed instruction matches its row of the table (rule R101). -/
def Statement (i : Instr) : Prop :=
  i.wf = true → tagMatches (tableRow i).1 (tableRow i).2 (encodeByte i) = true

theorem noneTag : Statement .noneTag := fun _ => rfl
theorem sub : Statement .sub := fun _ => rfl
theorem up : Statement .up := fun _ => rfl
theorem upFirst : Statement .upFirst := fun _ => rfl
theorem avg : Statement .avg := fun _ => rfl
theorem avgTop : Statement .avgTop := fun _ => rfl
theorem paeth : Statement .paeth := fun _ => rfl
theorem paethFirst : Statement .paethFirst := fun _ => rfl
theorem rsvd05 : Statement .rsvd05 := fun _ => rfl
theorem rsvd06to07 (t : Byte) : Statement (.rsvd06to07 t) := id
theorem rsvd08to0F (t : Byte) : Statement (.rsvd08to0F t) := id
theorem rsvd10to1F (t : Byte) : Statement (.rsvd10to1F t) := id
theorem rsvd20to3F (t : Byte) : Statement (.rsvd20to3F t) := id
theorem rsvd40to7F (t : Byte) : Statement (.rsvd40to7F t) := id
theorem rsvd80toFF (t : Byte) : Statement (.rsvd80toFF t) := id
theorem start : Statement .start := fun _ => rfl

end Sys2Proof.Laws.ByteMatchesTable
end

