-- ==== Sys2Proof/Laws/Row.lean ====
section
/-! SUPPORT. What a row does, said once: the frame of the control registers, memory's form, and the fields its end
writes. Later proofs cite these instead of unfolding the row loop. -/

namespace Sys2Proof.Machine

namespace SameControl

/-- Nothing changed is a frame. -/
theorem refl (s : State) : SameControl s s :=
  ⟨rfl, rfl, rfl, rfl, rfl, rfl, rfl, rfl, rfl, rfl, rfl, rfl⟩

/-- Frames compose. -/
theorem trans {s t u : State} (h : SameControl s t) (h' : SameControl t u) : SameControl s u :=
  ⟨h'.params.trans h.params, h'.base.trans h.base, h'.nrows.trans h.nrows, h'.rowlen.trans h.rowlen,
   h'.bpp.trans h.bpp, h'.written.trans h.written, h'.status.trans h.status, h'.cause.trans h.cause,
   h'.sel.trans h.sel, h'.host.trans h.host, h'.readData.trans h.readData, h'.draws.trans h.draws⟩

/-- A frame of all control registers is one of the configuration. -/
theorem toConfig {s t : State} (h : SameControl s t) : SameConfig s t :=
  ⟨h.params, h.base, h.nrows, h.rowlen, h.bpp, h.written⟩

end SameControl

namespace State

/-- The begin of a row keeps the control registers. -/
theorem beginRow_control (s : State) (op : Op) : SameControl s (s.beginRow op) :=
  ⟨rfl, rfl, rfl, rfl, rfl, rfl, rfl, rfl, rfl, rfl, rfl, rfl⟩

/-- A group step keeps the control registers. -/
theorem advanceGroup_control (s : State) (op : Filter) : SameControl s (s.advanceGroup op) :=
  ⟨rfl, rfl, rfl, rfl, rfl, rfl, rfl, rfl, rfl, rfl, rfl, rfl⟩

/-- The retire step keeps the control registers. -/
theorem retireRow_control (s : State) : SameControl s s.retireRow :=
  ⟨rfl, rfl, rfl, rfl, rfl, rfl, rfl, rfl, rfl, rfl, rfl, rfl⟩

/-- Group steps keep the control registers. -/
theorem runGroups_control (op : Filter) (n : Nat) (s : State) : SameControl s (runGroups op n s) := by
  induction n generalizing s with
  | zero => exact .refl s
  | succ n ih => exact (advanceGroup_control s op).trans (ih _)

/-- Group steps keep the row counter, `PREV`, `PHASE` and `OP`. -/
theorem runGroups_seq (op : Filter) (n : Nat) (s : State) :
    (runGroups op n s).row = s.row ∧ (runGroups op n s).prev = s.prev ∧
    (runGroups op n s).prevValid = s.prevValid ∧ (runGroups op n s).phase = s.phase ∧
    (runGroups op n s).op = s.op := by
  induction n generalizing s with
  | zero => exact ⟨rfl, rfl, rfl, rfl, rfl⟩
  | succ n ih => exact ih (s.advanceGroup op)

/-- Group steps keep the canonical form. -/
theorem runGroups_wf (op : Filter) (n : Nat) (s : State) (h : s.mem.wf = true) :
    (runGroups op n s).mem.wf = true := by
  induction n generalizing s with
  | zero => exact h
  | succ n ih => exact ih _ (storeLanes_wf _ _ _ _ _ h)

/-- Group steps keep memory inside the address space. -/
theorem runGroups_below (op : Filter) (n : Nat) (s : State)
    (h : s.mem.below (2 ^ s.params.aw) = true) :
    (runGroups op n s).mem.below (2 ^ s.params.aw) = true := by
  induction n generalizing s with
  | zero => exact h
  | succ n ih => exact ih (s.advanceGroup op) (storeLanes_below (fun k => s.wrap_lt _) _ _ _ _ h)

/-- `GRP` stays an AW-bit value through group steps. -/
theorem runGroups_grp_lt (op : Filter) (n : Nat) (s : State) (h : s.grp < 2 ^ s.params.aw) :
    (runGroups op n s).grp < 2 ^ s.params.aw := by
  induction n generalizing s with
  | zero => exact h
  | succ n ih => exact ih (s.advanceGroup op) (s.wrap_lt _)

/-- Group steps compose. -/
theorem runGroups_add (op : Filter) (m n : Nat) (s : State) :
    runGroups op (m + n) s = runGroups op n (runGroups op m s) := by
  induction m generalizing s with
  | zero => simp [runGroups]
  | succ m ih => rw [Nat.succ_add]; exact ih _

/-- Micro-steps compose. -/
theorem microSteps_add (m n : Nat) (s : State) :
    microSteps (m + n) s = microSteps n (microSteps m s) := by
  induction m generalizing s with
  | zero => simp [microSteps]
  | succ m ih => rw [Nat.succ_add]; exact ih _

/-- A row in progress ends by retiring the state its group steps leave; that state differs from `s` in
memory, `GRP` and the pixel-group registers only. -/
theorem finishRow_retires (s : State) (h : s.phase ≠ .fetch) :
    ∃ u, s.finishRow = u.retireRow ∧ SameControl s u ∧ u.row = s.row ∧ u.op = s.op ∧
      (s.mem.wf = true → u.mem.wf = true) ∧
      (s.mem.below (2 ^ s.params.aw) = true → u.mem.below (2 ^ s.params.aw) = true) ∧
      (s.grp < 2 ^ s.params.aw → u.grp < 2 ^ s.params.aw) := by
  unfold State.finishRow
  cases hp : s.phase with
  | fetch => exact absurd hp h
  | retire => exact ⟨s, rfl, .refl s, rfl, rfl, id, id, id⟩
  | group =>
    cases ho : filterOf s.op with
    | none => exact ⟨s, by simp, .refl s, rfl, rfl, id, id, id⟩
    | some op =>
      refine ⟨runGroups op s.groupsLeft s, by simp, runGroups_control op _ s,
        (runGroups_seq op _ s).1, (runGroups_seq op _ s).2.2.2.2, ?_, ?_, ?_⟩
      · exact runGroups_wf op _ s
      · exact runGroups_below op _ s
      · exact runGroups_grp_lt op _ s

/-- What the end of a row in progress leaves, said once: the frame, the retire step's writes (rule R194), and
memory's form. -/
theorem finishRow_spec (s : State) (h : s.phase ≠ .fetch) :
    SameControl s s.finishRow ∧ s.finishRow.row = s.wrap (s.row + 1) ∧
    s.finishRow.prev = s.payAddr ∧ s.finishRow.prevValid = true ∧ s.finishRow.phase = .fetch ∧
    s.finishRow.op = s.op ∧
    (s.mem.wf = true → s.finishRow.mem.wf = true ∧ s.finishRow.mem.read s.tagAddr = 0) ∧
    (s.mem.below (2 ^ s.params.aw) = true → s.finishRow.mem.below (2 ^ s.params.aw) = true) ∧
    (s.grp < 2 ^ s.params.aw → s.finishRow.grp < 2 ^ s.params.aw) := by
  obtain ⟨u, hu, hc, hr, ho, hw, hb, hg⟩ := finishRow_retires s h
  have hwrap : ∀ n, u.wrap n = s.wrap n := wrap_congr hc.params
  have htag : u.tagAddr = s.tagAddr := by simp [State.tagAddr, hwrap, hc.base, hc.rowlen, hr]
  have hpay : u.payAddr = s.payAddr := by simp [State.payAddr, hwrap, hc.base, hc.rowlen, hr]
  rw [hu]
  refine ⟨hc.trans (retireRow_control u), ?_, hpay, rfl, rfl, ho, ?_, ?_, hg⟩
  · simp [hwrap, hr]
  · intro h'
    refine ⟨Memory.write_wf _ _ _ (hw h'), ?_⟩
    rw [← htag]
    simp [Memory.read_write_same _ _ _ (hw h')]
  · intro h'
    refine Memory.write_below _ _ ?_ (hb h')
    rw [hwrap]
    exact s.wrap_lt _

/-- What a whole row leaves, said once. -/
theorem runRow_spec (s : State) (op : Op) :
    SameControl s (s.runRow op) ∧ (s.runRow op).row = s.wrap (s.row + 1) ∧
    (s.runRow op).prev = s.payAddr ∧ (s.runRow op).prevValid = true ∧ (s.runRow op).phase = .fetch ∧
    (s.runRow op).op = op ∧
    (s.mem.wf = true → (s.runRow op).mem.wf = true ∧ (s.runRow op).mem.read s.tagAddr = 0) ∧
    (s.mem.below (2 ^ s.params.aw) = true → (s.runRow op).mem.below (2 ^ s.params.aw) = true) ∧
    (s.runRow op).grp < 2 ^ s.params.aw := by
  obtain ⟨hc, hr, hp, hv, hph, ho, hw, hb, hg⟩ :=
    finishRow_spec (s.beginRow op) (by simp)
  exact ⟨(beginRow_control s op).trans hc, hr, hp, hv, hph, ho, hw, hb, hg (Nat.two_pow_pos _)⟩

end State

end Sys2Proof.Machine
end

