-- ==== Sys2Proof/Laws/Step.lean ====
section
/-! SUPPORT. Inversion of `exec` and `step`: if they answer a next state, then one of the cases listed here holds. -/

namespace Sys2Proof.Machine

/-- A row instruction's meaning is its operation's row (rules R95, R96, R188). -/
theorem exec_row {i : Instr} {op : Op} (h : i.op = some op) (s : State) : exec i s = .next (s.runRow op) := by
  cases i <;> simp only [Instr.op, Option.some.injEq, reduceCtorEq] at h <;> subst h <;> rfl

/-- Only `START` has no operation. -/
theorem op_of_ne_start {i : Instr} (h : i ≠ .start) : ∃ op, i.op = some op := by
  cases i <;> first | exact ⟨_, rfl⟩ | exact absurd rfl h

/-- A reserved tag's operation is `NOP` (rule R98). -/
theorem decodeReserved_op (tag : Byte) : (decodeReserved tag).op = some .nop := by
  unfold decodeReserved
  simp only [apply_ite Instr.op]
  simp only [Instr.op, ite_self]

/-- Every tag decodes to a row instruction, never to `START` (rules R97, R98). -/
theorem decodeRow_op (first : Bool) (tag : Byte) : ∃ op, (decodeRow first tag).op = some op := by
  refine Option.isSome_iff_exists.mp ?_
  unfold decodeRow
  simp only [apply_ite Instr.op, decodeReserved_op]
  simp only [Instr.op, apply_ite Option.isSome, Option.isSome_some, ite_self]

/-- The cases of `START` (rules R180, R181). -/
theorem execStart_cases {s t : State} (h : execStart s = .next t) :
    (s.status = .busy ∧ t = s) ∨
    (s.status ≠ .busy ∧ s.written.all = true ∧ ∃ c, s.entryChecks = some c ∧ t = s.raiseAbort c) ∨
    (s.status ≠ .busy ∧ s.written.all = true ∧ s.entryChecks = none ∧ s.lengthUnspecified = false ∧
      t = s.beginCall) := by
  unfold execStart at h
  split at h
  · rename_i hb
    exact .inl ⟨hb, by injection h with h; exact h.symm⟩
  · rename_i hb
    split at h
    · cases h
    · rename_i hw
      simp only [Bool.not_eq_false] at hw
      split at h
      · rename_i c hc
        exact .inr (.inl ⟨hb, hw, c, hc, by injection h with h; exact h.symm⟩)
      · rename_i hc
        split at h
        · cases h
        · rename_i hl
          exact .inr (.inr ⟨hb, hw, hc, by simpa using hl, by injection h with h; exact h.symm⟩)

/-- The cases of PUE's own move (rules R17, R189, R195). -/
theorem pueMove_cases {s t : State} (h : s.pueMove = .next t) :
    (s.status ≠ .busy ∧ t = s) ∨
    (s.status = .busy ∧ s.phase = .fetch ∧ s.row = s.nrows ∧ t = s.complete) ∨
    (s.status = .busy ∧ s.phase = .fetch ∧ s.row ≠ s.nrows ∧
      ∃ op, s.fetchInstr.op = some op ∧ t = s.runRow op) ∨
    (s.status = .busy ∧ s.phase ≠ .fetch ∧ t = s.finishRow) := by
  unfold State.pueMove at h
  split at h
  · rename_i hb
    cases hp : s.phase with
    | fetch =>
      simp only [hp] at h
      split at h
      · rename_i hr
        exact .inr (.inl ⟨hb, rfl, hr, by injection h with h; exact h.symm⟩)
      · rename_i hr
        obtain ⟨op, ho⟩ := decodeRow_op s.first s.fetchTag
        have ho' : s.fetchInstr.op = some op := ho
        rw [exec_row ho'] at h
        exact .inr (.inr (.inl ⟨hb, rfl, hr, op, ho', by injection h with h; exact h.symm⟩))
    | group =>
      simp only [hp] at h
      exact .inr (.inr (.inr ⟨hb, by simp, by injection h with h; exact h.symm⟩))
    | retire =>
      simp only [hp] at h
      exact .inr (.inr (.inr ⟨hb, by simp, by injection h with h; exact h.symm⟩))
  · rename_i hb
    exact .inl ⟨hb, by injection h with h; exact h.symm⟩

/-- When a host access completes (rules R44, R70). -/
theorem hostAccess_next {s ok t : State} {addr : Nat} (h : s.hostAccess addr ok = .next t) :
    addr < 2 ^ s.params.aw ∧ ¬ (s.status = .busy ∧ s.inBuffer addr = true) ∧ t = ok := by
  unfold State.hostAccess at h
  split at h
  · cases h
  · rename_i ha
    split at h
    · cases h
    · rename_i hb
      exact ⟨by omega, hb, by injection h with h; exact h.symm⟩

/-- `START` is bit 0 of the low byte of the data, so of the data (rules R38, R48). -/
theorem ctrl_start_bit (v : Nat) : (BitVec.ofNat 8 v).getLsbD 0 = decide (v % 2 = 1) := by
  simp only [BitVec.getLsbD_ofNat, Nat.testBit_zero, Nat.zero_lt_succ, decide_true, Bool.true_and]

/-- The cases of a host write of a control register (rules R38, R42): `CTRL` with bit 0 set, with bit 0 clear,
or another register. -/
theorem hostWriteReg_cases {s t : State} {r : CReg} {v : Nat} (h : s.hostWriteReg r v = .next t) :
    (r = .ctrl ∧ ((v % 2 = 1 ∧ execStart s = .next t) ∨ (v % 2 = 0 ∧ t = s))) ∨
    (r ≠ .ctrl ∧ t = s.writeConfig r v) := by
  by_cases hr : r = .ctrl
  · refine .inl ⟨hr, ?_⟩
    rcases Nat.mod_two_eq_zero_or_one v with hv | hv <;>
      simp only [State.hostWriteReg, hr, if_true, decodeCtrl, ctrl_start_bit, hv, decide_true,
        Nat.zero_ne_one, decide_false, Bool.false_eq_true, if_false] at h
    · exact .inr ⟨hv, by injection h with h; exact h.symm⟩
    · exact .inl ⟨hv, h⟩
  · simp only [State.hostWriteReg, hr, if_false] at h
    exact .inr ⟨hr, by injection h with h; exact h.symm⟩

/-- The cases of one step: PUE's move, or one host command; `u` is `s` with that command used up. -/
theorem step_cases {s t : State} (h : step s = .next t) :
    ((s.host = [] ∧ s.pueMove = .next t) ∨
      ∃ rest, s.host = .pause :: rest ∧ State.pueMove { s with host := rest } = .next t) ∨
    ∃ c rest, s.host = c :: rest ∧
      let u : State := { s with host := rest }
      (∃ r v, c = .writeReg r v ∧
        ((r = .ctrl ∧ ((v % 2 = 1 ∧ execStart u = .next t) ∨ (v % 2 = 0 ∧ t = u))) ∨
          (r ≠ .ctrl ∧ t = u.writeConfig r v))) ∨
      (∃ r, c = .readReg r ∧ t = { u with readData := u.readReg r }) ∨
      (∃ addr v, c = .writeMem addr v ∧ addr < 2 ^ s.params.aw ∧
        ¬ (s.status = .busy ∧ s.inBuffer addr = true) ∧ t = { u with mem := u.mem.write addr v }) ∨
      (∃ addr, c = .readMem addr ∧ addr < 2 ^ s.params.aw ∧
        ¬ (s.status = .busy ∧ s.inBuffer addr = true) ∧
        t = { u with readData := (u.mem.read addr).toNat }) ∨
      (c = .reset ∧ t = u.resetInput) := by
  unfold step at h
  cases hh : s.host with
  | nil =>
    simp only [hh] at h
    exact .inl (.inl ⟨rfl, h⟩)
  | cons c rest =>
    simp only [hh] at h
    cases c with
    | pause => exact .inl (.inr ⟨rest, rfl, h⟩)
    | writeReg r v =>
      exact .inr ⟨_, rest, rfl, .inl ⟨r, v, rfl, hostWriteReg_cases h⟩⟩
    | readReg r =>
      exact .inr ⟨_, rest, rfl, .inr (.inl ⟨r, rfl, by injection h with h; exact h.symm⟩)⟩
    | writeMem addr v =>
      obtain ⟨h1, h2, h3⟩ := hostAccess_next h
      exact .inr ⟨_, rest, rfl, .inr (.inr (.inl ⟨addr, v, rfl, h1, h2, h3⟩))⟩
    | readMem addr =>
      obtain ⟨h1, h2, h3⟩ := hostAccess_next h
      exact .inr ⟨_, rest, rfl, .inr (.inr (.inr (.inl ⟨addr, rfl, h1, h2, h3⟩)))⟩
    | reset =>
      exact .inr ⟨_, rest, rfl, .inr (.inr (.inr (.inr ⟨rfl, by injection h with h; exact h.symm⟩)))⟩

end Sys2Proof.Machine
end

