-- ==== Sys2Proof/Tests/Slice0.lean ====
section
/-! SUPPORT. The model's own tests: the well-formedness smoke tests, decoding by words written out from the spec's
tables, single steps against the vectors of 95_test_vectors.md, and a witness for every statement's hypotheses. -/

namespace Sys2Proof.Tests

open Sys2Proof.Machine

/-! ## Helpers -/

/-- The bytes of a buffer placed at address 0. -/
def bufferAt0 (bytes : List Byte) : Memory := Memory.writeBytes 0 bytes []

/-- A state at the fetch of row `row` of a running call whose buffer is `bytes` at address 0, with every
register that the call's rules give at its value, and the kernels `sel`. -/
def atRowOf (sel : Sel) (bpp rowlen nrows row : Nat) (bytes : List Byte) : State :=
  { State.resetOf Config.shownParams with
    nrows := nrows, rowlen := rowlen, bpp := BitVec.ofNat 8 bpp, written := ⟨true, true, true, true⟩,
    status := .busy, sel := sel, row := row, prev := (row - 1) * rowlen + 1,
    prevValid := decide (0 < row), mem := bufferAt0 bytes }

/-- The next state's memory from address `lo`, `n` bytes. -/
def bytesAfter (lo n : Nat) : Host.Outcome State Fault Refusal → Option (List Byte)
  | .next t => some (t.mem.readBytes lo n)
  | .fault _ => none
  | .refused _ => none

/-- `STATE` and `CAUSE` of the next state. -/
def statusAfter : Host.Outcome State Fault Refusal → Option (CallState × Nat)
  | .next t => some (t.status, t.cause.toNat)
  | .fault _ => none
  | .refused _ => none

/-- The refusal, if there is one. -/
def refusalOf : Host.Outcome State Fault Refusal → Option Refusal
  | .next _ => none
  | .fault _ => none
  | .refused r => some r

/-- Every operation on the higher x86 level's kernel. -/
def allVx2 : Sel := ⟨.vx2, .vx2, .vx2, .vx2, .vx2⟩

/-- An idle instance with address width `aw` and its configuration written. -/
def configured (aw : Nat) (strict : Bool) (bpp nrows rowlen base : Nat) : State :=
  { State.resetOf { Config.shownParams with aw := aw, strict := strict } with
    bpp := BitVec.ofNat 8 bpp, nrows := nrows, rowlen := rowlen, base := base,
    written := ⟨true, true, true, true⟩ }

/-! ## Well-formedness: each check refuses an ill-formed term -/

theorem test_wf_rsvd06 : (Instr.rsvd06to07 0x08).wf = false := by decide
theorem test_wf_rsvd08 : (Instr.rsvd08to0F 0x10).wf = false := by decide
theorem test_wf_rsvd10 : (Instr.rsvd10to1F 0x0F).wf = false := by decide
theorem test_wf_rsvd20 : (Instr.rsvd20to3F 0x40).wf = false := by decide
theorem test_wf_rsvd40 : (Instr.rsvd40to7F 0x3F).wf = false := by decide
theorem test_wf_rsvd80 : (Instr.rsvd80toFF 0x7F).wf = false := by decide
theorem test_wf_aw : Params.wf { Config.shownParams with aw := 7 } = false := by decide
theorem test_wf_feat : Params.wf { Config.shownParams with feat := 0b101 } = false := by decide
theorem test_wf_feat_x86 : Params.wf { Config.shownParams with feat := 0b011 } = true := by decide

/-! ## Decoding: words of the tables of rules R95, R96, R101, R180 -/

theorem test_decode_none : decode .rowFirst 0b00000000 = .ok .noneTag := by rfl
theorem test_decode_sub : decode .rowLater 0b00000001 = .ok .sub := by rfl
theorem test_decode_up : decode .rowLater 0b00000010 = .ok .up := by rfl
theorem test_decode_up_first : decode .rowFirst 0b00000010 = .ok .upFirst := by rfl
theorem test_decode_avg : decode .rowLater 0b00000011 = .ok .avg := by rfl
theorem test_decode_avgtop : decode .rowFirst 0b00000011 = .ok .avgTop := by rfl
theorem test_decode_paeth : decode .rowLater 0b00000100 = .ok .paeth := by rfl
theorem test_decode_paeth_first : decode .rowFirst 0b00000100 = .ok .paethFirst := by rfl
theorem test_decode_05 : decode .rowFirst 0b00000101 = .ok .rsvd05 := by rfl
theorem test_decode_07 : decode .rowLater 0b00000111 = .ok (.rsvd06to07 0b111) := by rfl
theorem test_decode_08 : decode .rowLater 0b00001000 = .ok (.rsvd08to0F 0b1000) := by rfl
theorem test_decode_1F : decode .rowFirst 0b00011111 = .ok (.rsvd10to1F 0b11111) := by rfl
theorem test_decode_20 : decode .rowLater 0b00100000 = .ok (.rsvd20to3F 0b100000) := by rfl
theorem test_decode_7F : decode .rowFirst 0b01111111 = .ok (.rsvd40to7F 0x7F) := by rfl
theorem test_decode_C8 : decode .rowLater 0b11001000 = .ok (.rsvd80toFF 0xC8) := by rfl
theorem test_decode_start : decode .ctrl 0b00000001 = .ok .start := by rfl
theorem test_decode_no_start : decode .ctrl 0b11111110 = .error .startBitClear := by rfl

theorem test_tableWord_up : decodeTableWord 8 0x02 = some .up := by decide
theorem test_tableWord_upFirst : decodeTableWord 16 0x102 = some .upFirst := by decide
theorem test_tableWord_start : decodeTableWord 16 0x201 = some .start := by decide

/-! ## Rows: the source's examples S1 to S6 and derived vectors (95_test_vectors.md) -/

/-- S1. -/
theorem test_sub_S1 :
    bytesAfter 0 9 (exec .sub (atRowOf .allScalar 1 9 1 0 [1, 1, 2, 3, 255, 5, 6, 7, 8])) =
      some [0, 1, 3, 6, 5, 10, 16, 23, 31] := by decide
/-- S2, on a vector kernel. -/
theorem test_sub_S2 :
    bytesAfter 0 9 (exec .sub (atRowOf allVx2 2 9 1 0 [1, 1, 2, 3, 255, 5, 6, 7, 8])) =
      some [0, 1, 2, 4, 1, 9, 7, 16, 15] := by decide
/-- V-PAE-4. -/
theorem test_paethFirst_V4 :
    bytesAfter 0 9 (exec .paethFirst (atRowOf .allScalar 1 9 1 0 [4, 1, 2, 3, 255, 5, 6, 7, 8])) =
      some [0, 1, 3, 6, 5, 10, 16, 23, 31] := by decide

/-- The source's previous row as row 0, and `payload` as row 1 with tag `tag`. -/
def twoRows (tag : Byte) : List Byte :=
  [0, 12, 17, 127, 128, 255, 250, 7, 54] ++ [tag, 1, 2, 3, 255, 5, 6, 7, 8]

/-- S3. -/
theorem test_up_S3 :
    bytesAfter 9 9 (exec .up (atRowOf .allScalar 1 9 2 1 (twoRows 2))) =
      some [0, 13, 19, 130, 127, 4, 0, 14, 62] := by decide
/-- S4. -/
theorem test_avg_S4 :
    bytesAfter 9 9 (exec .avg (atRowOf .allScalar 1 9 2 1 (twoRows 3))) =
      some [0, 7, 14, 73, 99, 182, 222, 121, 95] := by decide
/-- S4 on a vector kernel. -/
theorem test_avg_S4_vector :
    bytesAfter 9 9 (exec .avg (atRowOf allVx2 1 9 2 1 (twoRows 3))) =
      some [0, 7, 14, 73, 99, 182, 222, 121, 95] := by decide
/-- S5. -/
theorem test_avgTop_S5 :
    bytesAfter 0 9 (exec .avgTop (atRowOf .allScalar 1 9 1 0 [3, 1, 2, 3, 255, 5, 6, 7, 8])) =
      some [0, 1, 2, 4, 1, 5, 8, 11, 13] := by decide
/-- V-AVGTOP-2, on a vector kernel. -/
theorem test_avgTop_V2 :
    bytesAfter 0 7 (exec .avgTop (atRowOf allVx2 2 7 1 0 [3, 255, 1, 0, 0, 3, 3])) =
      some [0, 255, 1, 127, 0, 66, 3] := by decide
/-- S6. -/
theorem test_paeth_S6 :
    bytesAfter 9 9 (exec .paeth (atRowOf .allScalar 1 9 2 1 (twoRows 4))) =
      some [0, 13, 19, 130, 129, 4, 10, 14, 62] := by decide
/-- S6 on a vector kernel. -/
theorem test_paeth_S6_vector :
    bytesAfter 9 9 (exec .paeth (atRowOf allVx2 1 9 2 1 (twoRows 4))) =
      some [0, 13, 19, 130, 129, 4, 10, 14, 62] := by decide
/-- V-UP-3, first-row Up. -/
theorem test_upFirst_V3 :
    bytesAfter 0 4 (exec .upFirst (atRowOf .allScalar 1 4 1 0 [2, 9, 9, 9])) =
      some [0, 9, 9, 9] := by decide
/-- Program 3, row 1: a reserved tag. -/
theorem test_rsvd80_program3 :
    bytesAfter 0 7 (exec (.rsvd80toFF 0xC8) (atRowOf .allScalar 2 7 1 0 [0xC8, 9, 8, 7, 6, 5, 4])) =
      some [0, 9, 8, 7, 6, 5, 4] := by decide

/-- The Paeth predictor's ties (95_test_vectors.md, section 5). -/
theorem test_paeth_ties :
    paethPredictor 5 5 5 = 5 ∧ paethPredictor 100 100 0 = 100 ∧ paethPredictor 0 3 1 = 3 ∧
    paethPredictor 3 0 1 = 3 ∧ paethPredictor 10 20 15 = 15 ∧ paethPredictor 129 255 128 = 255 := by decide

/-- The example of rule R160: one lane takes `a`, one `b`, one `c`. -/
theorem test_vPaeth_R160 :
    vPaeth ⟨255, 7, 1, 0, 0, 0, 0, 0⟩ ⟨130, 10, 10, 0, 0, 0, 0, 0⟩ ⟨128, 7, 20, 0, 0, 0, 0, 0⟩
      ⟨127, 250, 15, 0, 0, 0, 0, 0⟩ = ⟨129, 14, 16, 0, 0, 0, 0, 0⟩ := by decide

/-! ## START: the vectors of section 8 -/

/-- V-CHK-1. -/
theorem test_start_chk1 : statusAfter (exec .start (configured 64 true 9 0 0 0)) = some (.aborted, 1) := by
  decide
/-- V-CHK-4: the lowest code wins. -/
theorem test_start_chk4 : statusAfter (exec .start (configured 64 true 200 1 0 0)) = some (.aborted, 1) := by
  decide
/-- V-CHK-6. -/
theorem test_start_chk6 :
    statusAfter (exec .start (configured 16 true 1 2 9 0xFFF0)) = some (.aborted, 4) := by decide
/-- V-CHK-7: the buffer may end at the top of the address space. -/
theorem test_start_chk7 :
    statusAfter (exec .start (configured 16 true 1 2 9 0xFFEE)) = some (.busy, 0) := by decide
/-- V-CHK-9. -/
theorem test_start_chk9 :
    refusalOf (exec .start (configured 64 false 2 1 6 0)) = some .lengthNotMultiple := by decide

/-- The example parameter set E1 of section 7. -/
def thrE1 : Thresholds :=
  { sub := ⟨4, 9, 1⟩, up := ⟨1, 9, 1⟩, avg := ⟨4, 6, 1⟩, avgtop := ⟨4, 6, 1⟩, paeth := ⟨3, 4, 1⟩ }

/-- Section 7: `SEL` for FEAT 011 at BPP 3, 4 and 8, FEAT 010 at BPP 4 and FEAT 100 at BPP 1. -/
theorem test_select_E1 :
    (selectAll ⟨64, 0b011, thrE1, true⟩ 3).bits = 0x104 ∧ (selectAll ⟨64, 0b011, thrE1, true⟩ 4).bits = 0x255 ∧
    (selectAll ⟨64, 0b011, thrE1, true⟩ 8).bits = 0x2A5 ∧ (selectAll ⟨64, 0b010, thrE1, true⟩ 4).bits = 0x200 ∧
    (selectAll ⟨64, 0b100, thrE1, true⟩ 1).bits = 0x3FF := by decide

/-! ## The step -/

/-- `OP` and `ROW` of the next state. -/
def opAfter : Host.Outcome State Fault Refusal → Option (Op × Nat)
  | .next t => some (t.op, t.row)
  | .fault _ => none
  | .refused _ => none

/-- A placed tag is fetched, decoded in its mode and run by the very next step. -/
theorem test_step_placed_rows :
    opAfter (step (State.reset.withFetchWord 8 0x02)) = some (.up, 2) ∧
    opAfter (step (State.reset.withFetchWord 16 0x103)) = some (.avgtop, 1) := by decide
/-- A placed `START` is run by the very next step. -/
theorem test_step_placed_start :
    statusAfter (step (State.reset.withFetchWord 16 0x201)) = some (.busy, 0) := by decide
/-- V-CHK-12: `START` while `BUSY` is ignored. -/
theorem test_start_chk12 :
    opAfter (step { atRowOf .allScalar 1 9 2 1 (twoRows 2) with host := [.writeReg .ctrl 1] }) =
      some (.nop, 1) := by decide
/-- Rule R70: the buffer's first and last byte are refused to the host, the byte after it is not. -/
theorem test_host_buffer_edges :
    refusalOf (step { atRowOf .allScalar 1 9 2 1 (twoRows 2) with host := [.readMem 0] }) =
      some .bufferOwnedByPue ∧
    refusalOf (step { atRowOf .allScalar 1 9 2 1 (twoRows 2) with host := [.writeMem 17 1] }) =
      some .bufferOwnedByPue ∧
    refusalOf (step { atRowOf .allScalar 1 9 2 1 (twoRows 2) with host := [.writeMem 18 1] }) = none := by
  decide

/-! ## Witnesses: states and operands that meet the statements' hypotheses -/

/-- Row 0 of a call of two rows. -/
abbrev row0 : State := atRowOf .allScalar 1 9 2 0 (twoRows 4)

/-- Row 1 of the same call. -/
abbrev row1 : State := atRowOf .allScalar 1 9 2 1 (twoRows 4)

/-- The same call at its end. -/
abbrev rowEnd : State := atRowOf .allScalar 1 9 2 2 (twoRows 0)

/-- Row 1 of it in the middle of a Paeth row. -/
abbrev mid1 : State := { row1 with phase := .group, op := .paeth, grp := 7 }

/-- A call of two rows that ends at the top of a 16-bit address space (V-CHK-7). -/
abbrev launch : State := configured 16 true 1 2 9 0xFFEE

theorem witness_DecodeAndEncodeAgree :
    (Instr.rsvd80toFF 0xFF).wf = true ∧ (Space.rowFirst, 0xFF) ∈ encode (.rsvd80toFF 0xFF) := by decide

theorem witness_NoTagIsIllegal : 5 ≤ (5 : Byte).toNat ∧ 5 ≤ (255 : Byte).toNat := by decide

theorem witness_StepRunsTheRowAtTheProgramCounter :
    row1.host = [] ∧ row1.status = .busy ∧ row1.phase = .fetch ∧ row1.row ≠ row1.nrows ∧
    { row1 with host := [.pause] }.host = [.pause] := by decide

theorem witness_CtrlWriteIsStartOrNothing :
    { launch with host := [.writeReg .ctrl 3] }.host = [.writeReg .ctrl 3] ∧ 3 % 2 = 1 ∧
    launch.status ≠ .busy ∧ row1.status = .busy ∧ 2 % 2 = 0 := by decide

theorem witness_PueMovesOnlyWhileBusy : launch.status ≠ .busy ∧ launch.host = [] := by decide

theorem witness_NopRowsKeepTheirPayload :
    isNopRow .upFirst = true ∧ isNopRow (.rsvd06to07 6) = true ∧ row0.mem.wf = true := by decide

/-- Rows ready to run: the first, and one whose buffer ends at the top of the address space. -/
theorem witness_RowReady : RowReady row0 ∧ RowReady { launch with row := 1 } :=
  ⟨⟨⟨by decide, by decide, by decide, by decide, by decide⟩, by decide, by decide⟩,
   ⟨⟨by decide, by decide, by decide, by decide, by decide⟩, by decide, by decide⟩⟩

theorem witness_AboveReady : AboveReady row1 :=
  ⟨⟨⟨by decide, by decide, by decide, by decide, by decide⟩, by decide, by decide⟩, by decide, by decide⟩

theorem witness_SubRowAddsTheLeftNeighbour :
    RowReady row0 ∧ (Instr.paethFirst = .sub ∨ Instr.paethFirst = .paethFirst) ∧ 7 < row0.payloadLen :=
  ⟨witness_RowReady.1, by decide, by decide⟩

theorem witness_UpRowAddsTheByteAbove : AboveReady row1 ∧ 7 < row1.payloadLen ∧ (0 : Nat) < row1.bpp.toNat :=
  ⟨witness_AboveReady, by decide, by decide⟩

theorem witness_AvgRowAddsTheFlooredMean : AboveReady row1 ∧ 0 < row1.payloadLen ∧ (0 : Nat) < row1.bpp.toNat :=
  ⟨witness_AboveReady, by decide, by decide⟩

theorem witness_AvgTopRowAddsHalfTheLeftNeighbour : RowReady row0 ∧ 0 < row0.payloadLen :=
  ⟨witness_RowReady.1, by decide⟩

theorem witness_PaethRowAddsThePredictor :
    AboveReady row1 ∧ 7 < row1.payloadLen ∧ PaethChoice 0 3 1 3 ∧ PaethChoice 10 20 15 15 ∧
    PaethChoice 5 5 5 5 :=
  ⟨witness_AboveReady, by decide, by decide, by decide, by decide⟩

theorem witness_RowRunsAreTheWholeRowForm :
    Instr.op .paeth |>.bind filterOf |> (· = some Filter.paeth) := by decide

theorem witness_RowIsItsMicroSteps :
    row1.rowlen < 2 ^ row1.params.aw ∧ row1.status = .busy ∧ row1.phase = .fetch ∧
    row1.row ≠ row1.nrows ∧ isNopRow row1.fetchInstr = false ∧ isNopRow row0.fetchInstr = true := by decide

theorem witness_StepInsideARowIsMicroSteps :
    mid1.rowlen < 2 ^ mid1.params.aw ∧ mid1.grp < 2 ^ mid1.params.aw ∧ mid1.host = [] ∧
    mid1.status = .busy ∧ mid1.phase ≠ .fetch := by decide

theorem witness_GroupStepMovesTheHistory :
    RowReady mid1 ∧ AboveReady mid1 ∧ mid1.grp < mid1.groups ∧ mid1.status = .busy ∧
    mid1.phase = .group ∧ filterOf mid1.op = some .paeth ∧ (0 : Nat) < mid1.bpp.toNat :=
  ⟨⟨⟨by decide, by decide, by decide, by decide, by decide⟩, by decide, by decide⟩,
   ⟨⟨⟨by decide, by decide, by decide, by decide, by decide⟩, by decide, by decide⟩, by decide, by decide⟩,
   by decide, by decide, by decide, by decide, by decide⟩

/-- A second memory that differs from `row1`'s outside its row only (in the tag of row 0). -/
theorem witness_RowReadsOnlyItselfAndTheRowAbove :
    RowReady row1 ∧ (row1.mem.write 0 9).wf = true ∧ (row1.mem.write 0 9) ≠ row1.mem ∧
    (∀ addr, row1.tagAt row1.row ≤ addr → addr < row1.tagAt row1.row + row1.rowlen →
      (row1.mem.write 0 9).read addr = row1.mem.read addr) ∧
    (∀ op, Instr.paeth.op.bind filterOf = some op → readsAbove op = true → AboveReady row1 ∧
      ∀ j < row1.payloadLen,
        (row1.mem.write 0 9).read (row1.payAt (row1.row - 1) j) =
          row1.mem.read (row1.payAt (row1.row - 1) j)) := by
  refine ⟨witness_AboveReady.ready, by decide, by decide, ?_, fun _ _ _ => ⟨witness_AboveReady, by decide⟩⟩
  intro addr h1 h2
  have e1 : row1.tagAt row1.row = 9 := by decide
  have e2 : row1.rowlen = 9 := by decide
  rw [e1] at h1
  have hne : addr ≠ 0 := by omega
  match addr, hne with
  | n + 1, _ => rfl

theorem witness_AddressesDoNotWrap : AboveReady mid1 ∧ mid1.grp < mid1.groups :=
  ⟨witness_GroupStepMovesTheHistory.2.1, by decide⟩

theorem witness_VectorKernelsEqualScalar :
    (1 ≤ 8 ∧ 8 ≤ 8 ∧ (7 : Fin 8).val < 8) ∧ (1 ≤ 1 ∧ 1 ≤ 8 ∧ (0 : Fin 8).val < 1) := by decide

theorem witness_FirstRowIdentities : (7 : Fin 8).val < 8 := by decide

theorem witness_GroupLoadIsZeroPadded :
    0xFFFF + (launch.bpp).toNat ≤ 2 ^ launch.params.aw := by decide

theorem witness_GroupStoreWritesOnlyActiveLanes :
    launch.mem.wf = true ∧ launch.bpp.toNat ≤ 8 ∧ 0xFFFF + launch.bpp.toNat ≤ 2 ^ launch.params.aw ∧
    launch.bpp.toNat ≤ (1 : Fin 8).val ∧ launch.a.get 1 = 0 ∧ launch.c.get 1 = 0 := by decide

theorem witness_LaunchPremises : LaunchPremises launch ∧ launch.nrows ≠ 0 :=
  ⟨⟨by decide, by decide, ⟨by decide, by decide, by decide, by decide, by decide⟩⟩, by decide⟩

/-- V-CHK-2 and V-CHK-1: no rows, `BPP` 8 and 9. -/
theorem witness_EmptyBufferIsDoneAtOnce :
    (configured 64 true 8 0 0 0).status ≠ .busy ∧ (configured 64 true 8 0 0 0).written.all = true ∧
    (configured 64 true 8 0 0 0).nrows = 0 ∧ 1 ≤ (configured 64 true 8 0 0 0).bpp.toNat ∧
    (configured 64 true 8 0 0 0).bpp.toNat ≤ 8 ∧ 8 < (configured 64 true 9 0 0 0).bpp.toNat ∧
    (configured 64 true 0 0 0 0).bpp.toNat = 0 := by decide

/-- Each check's condition is met, at its boundary, and reports its code (V-CHK-1, 3, 5, 6, 7, 8). -/
theorem witness_EntryChecksReportTheLowestCode :
    statusAfter (exec .start (configured 64 true 9 1 9 0)) = some (.aborted, 1) ∧
    statusAfter (exec .start (configured 64 true 0 3 9 0)) = some (.aborted, 2) ∧
    statusAfter (exec .start (configured 64 true 2 1 0 0)) = some (.aborted, 3) ∧
    statusAfter (exec .start (configured 16 true 1 2 9 0xFFEF)) = some (.aborted, 4) ∧
    statusAfter (exec .start (configured 64 true 2 1 6 0)) = some (.aborted, 5) ∧
    statusAfter (exec .start (configured 16 true 8 2 9 0xFFEE)) = some (.busy, 0) := by decide

theorem witness_AbortTouchesNothingOutsideTheBuffer :
    (configured 16 true 1 2 9 0xFFEF).status ≠ .busy ∧
    statusAfter (exec .start (configured 16 true 1 2 9 0xFFEF)) = some (.aborted, 4) := by decide

theorem witness_LengthNotAMultipleAbortsOrIsRefused :
    (configured 64 true 2 1 6 0).status ≠ .busy ∧ (configured 64 true 2 1 6 0).written.all = true ∧
    1 ≤ (configured 64 true 2 1 6 0).bpp.toNat ∧ (configured 64 true 2 1 6 0).bpp.toNat ≤ 8 ∧
    (6 - 1) % (configured 64 true 2 1 6 0).bpp.toNat ≠ 0 ∧
    refusalOf (exec .start (configured 64 false 2 1 6 0)) = some .lengthNotMultiple ∧
    statusAfter (exec .start (configured 64 true 2 0 6 0)) = some (.done, 0) ∧
    statusAfter (exec .start (configured 64 false 2 1 7 0)) = some (.busy, 0) := by decide

theorem witness_UnwrittenConfigurationIsRefused :
    State.reset.status ≠ .busy ∧ State.reset.written.base = false ∧
    refusalOf (exec .start { launch with written := ⟨true, true, true, false⟩ }) =
      some .configUnwritten ∧
    statusAfter (step { launch with host := [.writeReg .bpp 2] }) = some (.idle, 0) := by decide

theorem witness_StartSelectsByFeatureAndThreshold :
    launch.params.wf = true ∧ LaunchPremises launch ∧ statusAfter (exec .start launch) = some (.busy, 0) :=
  ⟨by decide, witness_LaunchPremises.1, by decide⟩

/-- The launch state has the invariant (`StepKeepsTheInvariant` and the whole-call statements). -/
theorem witness_Inv_launch : Inv launch :=
  { params_wf := by decide, base_lt := by decide, nrows_lt := by decide, rowlen_lt := by decide,
    row_lt := by decide, grp_lt := by decide, prev_lt := by decide, mem_wf := by decide,
    mem_below := by decide, cause_zero := by decide, cause_aborted := by decide,
    running := fun h => absurd h (by decide) }

/-- A running call has the invariant, in the middle of a row. -/
theorem witness_Inv_mid : Inv mid1 :=
  { params_wf := by decide, base_lt := by decide, nrows_lt := by decide, rowlen_lt := by decide,
    row_lt := by decide, grp_lt := by decide, prev_lt := by decide, mem_wf := by decide,
    mem_below := by decide, cause_zero := by decide, cause_aborted := by decide,
    running := fun _ =>
      { legal := ⟨by decide, by decide, by decide, by decide, by decide⟩, config := by decide,
        row_le := by decide, sel_eq := by decide, prev_valid := by decide, prev_eq := by decide,
        in_row := by decide, grp_le := by decide, reads_ok := fun _ _ _ _ => by decide } }

/-- A running call has the invariant, at the fetch of row 0 and at its end. -/
theorem witness_Inv_ends : (Inv row0 ∧ row0.status = .busy ∧ row0.phase = .fetch ∧ row0.row = 0) ∧
    (Inv rowEnd ∧ rowEnd.host = [] ∧ rowEnd.phase = .fetch ∧ rowEnd.row = rowEnd.nrows) := by
  refine ⟨⟨⟨by decide, by decide, by decide, by decide, by decide, by decide, by decide, by decide,
    by decide, by decide, by decide, fun _ => ⟨⟨by decide, by decide, by decide, by decide, by decide⟩,
      by decide, by decide, by decide, by decide, by decide, by decide, by decide,
      fun h => absurd h (by decide)⟩⟩, by decide, by decide, by decide⟩,
    ⟨⟨by decide, by decide, by decide, by decide, by decide, by decide, by decide, by decide,
    by decide, by decide, by decide, fun _ => ⟨⟨by decide, by decide, by decide, by decide, by decide⟩,
      by decide, by decide, by decide, by decide, by decide, by decide, by decide,
      fun h => absurd h (by decide)⟩⟩, by decide, by decide, by decide⟩⟩

/-- The premises of `CallRunsToUnfilter`, `PostconditionsOfACall`, `FinishedBufferIsAFixedPoint`. -/
theorem witness_whole_calls : Inv launch ∧ LaunchPremises launch :=
  ⟨witness_Inv_launch, witness_LaunchPremises.1⟩

theorem witness_StepKeepsTheInvariant : Inv mid1 ∧ opAfter (step mid1) = some (.paeth, 2) :=
  ⟨witness_Inv_mid, by decide⟩

/-- A host that is about to write `CTRL` has the invariant. -/
theorem witness_Inv_call : Inv launch.call :=
  { witness_Inv_launch with running := fun h => absurd h (by decide) }

/-- Both ways a step can end `BUSY`: from a running call, and by `START`. -/
theorem witness_RowNeverGoesBack :
    (Inv mid1 ∧ statusAfter (step mid1) = some (.busy, 0)) ∧
    (Inv launch.call ∧ launch.call.status ≠ .busy ∧
      statusAfter (step launch.call) = some (.busy, 0)) :=
  ⟨⟨witness_Inv_mid, by decide⟩, witness_Inv_call, by decide, by decide⟩

theorem witness_ResetHasTheInvariant : Config.shownParams.wf = true := by decide

theorem witness_ResetInputEndsTheCall :
    { row1 with host := [.reset] }.host = [.reset] ∧ row1.status = .busy ∧ launch.status ≠ .busy := by decide

theorem witness_WritesWhileBusyAreIgnored :
    { row1 with host := [.writeReg .bpp 3] }.host = [.writeReg .bpp 3] ∧ row1.status = .busy := by decide

/-- Premises of the write clauses, and the codes of rules R37 and R39 read back. -/
theorem witness_ControlRegisterMap :
    launch.status ≠ .busy ∧ ({ launch with host := [.writeReg .base (2 ^ 64)] } : State).host =
      [.writeReg .base (2 ^ 64)] ∧
    ({ launch with sel := ⟨.vx1, .vx2, .va, .scalar, .va⟩ } : State).readReg .sel = 0b1100111001 ∧
    row1.readReg .status = 1 ∧ ({ launch with status := .done } : State).readReg .status = 2 ∧
    ({ launch with status := .aborted, cause := 1 } : State).readReg .status = 3 ∧
    ({ launch with status := .aborted, cause := 1 } : State).readReg .cause = 1 := by decide

theorem witness_ControlRegisterMap_inv : Inv launch ∧ Inv row0 := ⟨witness_Inv_launch, witness_Inv_ends.1.1⟩

theorem witness_BufferBelongsToPueWhileBusy :
    17 < 2 ^ row1.params.aw ∧ row1.params.aw = 64 ∧ row1.status = .busy ∧ row1.inBuffer 17 = true ∧
    row1.inBuffer 18 = false := by decide

end Sys2Proof.Tests
end

section
/-! PROOFS. Who moves: PUE's own move with no host command, and its absence outside a call (rule R17). -/

namespace Sys2Proof.Machine

/-- With no host command the step is PUE's own move (log entry 8). -/
theorem step_of_host_nil {s : State} (h : s.host = []) : step s = s.pueMove := by
  simp only [step, h]

/-- PUE's step-sized move is nothing outside a call (rule R17). -/
theorem pueMove_of_not_busy {s : State} (h : s.status ≠ .busy) : s.pueMove = .next s := if_neg h

/-- PUE's micro-step is nothing outside a call (rule R17). -/
theorem microStep_of_not_busy {s : State} (h : s.status ≠ .busy) : s.microStep = s := if_neg h

/-- Settles O7: with no host command the step is PUE's move, and neither of PUE's moves does anything
outside a call. -/
theorem pueMovesOnlyWhileBusy : Obligations.PueMovesOnlyWhileBusy := by
  intro s hidle hhost
  have hstep : step s = .next s := (step_of_host_nil hhost).trans (pueMove_of_not_busy hidle)
  exact ⟨hstep, microStep_of_not_busy hidle⟩

end Sys2Proof.Machine
end

section
/-! PROOFS. What a step does, each way once: the effects of either agent's move on the state with the host's move
used up. The invariants of the machine are proved effect by effect from this list (rules R17, R257). -/

namespace Sys2Proof.Machine

/-- What the end of a row leaves (rule R194): the frame of the control registers, the retire step's writes to the
sequencer, and memory's form. -/
structure EndsRow (s t : State) : Prop where
  control    : SameControl s t
  row_eq     : t.row = s.wrap (s.row + 1)
  prev_eq    : t.prev = s.payAddr
  prev_valid : t.prevValid = true
  phase_eq   : t.phase = .fetch
  mem_wf     : s.mem.wf = true → t.mem.wf = true
  mem_below  : s.mem.below (2 ^ s.params.aw) = true → t.mem.below (2 ^ s.params.aw) = true
  grp_lt     : s.grp < 2 ^ s.params.aw → t.grp < 2 ^ s.params.aw

/-- The end of a row in progress ends the row. -/
theorem endsRow_finishRow {s : State} (h : s.phase ≠ .fetch) : EndsRow s s.finishRow := by
  obtain ⟨hc, hr, hp, hv, hph, -, hw, hb, hg⟩ := s.finishRow_spec h
  exact ⟨hc, hr, hp, hv, hph, fun h => (hw h).1, hb, hg⟩

/-- A whole row ends the row. -/
theorem endsRow_runRow (s : State) (op : Op) : EndsRow s (s.runRow op) := by
  obtain ⟨hc, hr, hp, hv, hph, -, hw, hb, hg⟩ := s.runRow_spec op
  exact ⟨hc, hr, hp, hv, hph, fun h => (hw h).1, hb, fun _ => hg⟩

/-- The effects of a move on a state; `started` says that the move was a host write of `CTRL` with bit 0 set. -/
inductive Effect (started : Prop) (s : State) : State → Prop where
  /-- PUE idles, or the host's write is dropped (rules R17, R38, R42). -/
  | nothing : Effect started s s
  /-- The end of the call (rule R195). -/
  | done (hbusy : s.status = .busy) : Effect started s s.complete
  /-- A row, or the rest of one, is run to its end (rules R188, R194). -/
  | row {t : State} (hbusy : s.status = .busy) (hrow : s.phase = .fetch → s.row ≠ s.nrows)
      (hend : EndsRow s t) : Effect started s t
  /-- `START` aborts by an entry check (rules R226, R229). -/
  | abort (cause : Cause) : Effect started s (s.raiseAbort cause)
  /-- `START` begins a call (rule R181). -/
  | begin (hstart : started) (hidle : s.status ≠ .busy) (hwritten : s.written.all = true)
      (hchecks : s.entryChecks = none) (hlen : s.lengthUnspecified = false) : Effect started s s.beginCall
  /-- The host writes a register other than `CTRL` (rules R31 to R34, R48). -/
  | config (r : CReg) (v : Nat) : Effect started s (s.writeConfig r v)
  /-- The host reads a register or a byte (rule R42). -/
  | read (n : Nat) : Effect started s { s with readData := n }
  /-- The host writes a byte (rule R257). -/
  | store {addr : Nat} (haddr : addr < 2 ^ s.params.aw) (v : Byte) :
      Effect started s { s with mem := s.mem.write addr v }
  /-- The reset input (rule R250). -/
  | reset : Effect started s s.resetInput

/-- PUE's own move has one of the effects. -/
theorem pueMove_effect {started : Prop} {s t : State} (h : s.pueMove = .next t) : Effect started s t := by
  obtain ⟨-, rfl⟩ | ⟨hb, -, -, rfl⟩ | ⟨hb, -, hr, op, -, rfl⟩ | ⟨hb, hp, rfl⟩ := pueMove_cases h
  · exact .nothing
  · exact .done hb
  · exact .row hb (fun _ => hr) (endsRow_runRow s op)
  · exact .row hb (fun hf => absurd hf hp) (endsRow_finishRow hp)

/-- `START` has one of the effects. -/
theorem execStart_effect {started : Prop} {s t : State} (hstart : started) (h : execStart s = .next t) :
    Effect started s t := by
  obtain ⟨-, rfl⟩ | ⟨-, -, c, -, rfl⟩ | ⟨hb, hw, hc, hl, rfl⟩ := execStart_cases h
  · exact .nothing
  · exact .abort c
  · exact .begin hstart hb hw hc hl

/-- The next host command writes `CTRL` with bit 0 set (rules R38, R180). -/
def State.hostStarts (s : State) : Prop := ∃ v rest, s.host = .writeReg .ctrl v :: rest ∧ v % 2 = 1

/-- A step that answers a next state has one of the effects, on the state with the host's move used up. -/
theorem step_effect {s t : State} (h : step s = .next t) :
    ∃ rest, Effect s.hostStarts { s with host := rest } t := by
  obtain (⟨-, hp⟩ | ⟨rest, -, hp⟩) | ⟨c, rest, hh, hc⟩ := step_cases h
  · exact ⟨s.host, pueMove_effect hp⟩
  · exact ⟨rest, pueMove_effect hp⟩
  · refine ⟨rest, ?_⟩
    obtain ⟨r, v, rfl, hw⟩ | ⟨r, -, rfl⟩ | ⟨addr, v, -, ha, -, rfl⟩ | ⟨addr, -, -, -, rfl⟩ | ⟨-, rfl⟩ := hc
    · obtain ⟨rfl, ⟨hv, hs⟩ | ⟨-, rfl⟩⟩ | ⟨-, rfl⟩ := hw
      · exact execStart_effect ⟨v, rest, hh, hv⟩ hs
      · exact .nothing
      · exact .config r v
    · exact .read _
    · exact Effect.store (s := { s with host := rest }) ha v
    · exact .read _
    · exact .reset

/-! The begin of a call and a configuration write, case by case -/

/-- Without rows the call is over as it begins (rule R182). -/
theorem beginCall_of_empty {s : State} (h : s.nrows = 0) : s.beginCall = State.complete
    { s with cause := 0, sel := selectAll s.params s.bpp.toNat, row := 0, prevValid := false } :=
  if_pos h

/-- With rows the call runs from the fetch of row 0 (rule R181). -/
theorem beginCall_of_rows {s : State} (h : s.nrows ≠ 0) : s.beginCall =
    { s with cause := 0, sel := selectAll s.params s.bpp.toNat, row := 0, prevValid := false,
             status := .busy, phase := .fetch } :=
  if_neg h

/-- The begin of a call keeps the instance's constants. -/
@[simp] theorem beginCall_params (s : State) : s.beginCall.params = s.params := by
  by_cases hn : s.nrows = 0
  · rw [beginCall_of_empty hn]; rfl
  · rw [beginCall_of_rows hn]

/-- A configuration write while `BUSY` is dropped (rule R42). -/
theorem writeConfig_of_busy {s : State} (h : s.status = .busy) (r : CReg) (v : Nat) :
    s.writeConfig r v = s :=
  if_pos h

/-- A configuration write keeps the instance's constants. -/
@[simp] theorem writeConfig_params (s : State) (r : CReg) (v : Nat) :
    (s.writeConfig r v).params = s.params := by
  rw [State.writeConfig_frame]

/-- A configuration write keeps `STATE`. -/
@[simp] theorem writeConfig_status (s : State) (r : CReg) (v : Nat) :
    (s.writeConfig r v).status = s.status := by
  rw [State.writeConfig_frame]

/-- A configuration write keeps `ROW`. -/
@[simp] theorem writeConfig_row (s : State) (r : CReg) (v : Nat) :
    (s.writeConfig r v).row = s.row := by
  rw [State.writeConfig_frame]

/-- Settles O42: no effect of a move writes the constants. -/
theorem parametersNeverChange : Obligations.ParametersNeverChange := by
  intro s t h
  obtain ⟨rest, he⟩ := step_effect h
  cases he with
  | nothing | done | abort | read | store | reset => rfl
  | row _ _ hend => exact hend.control.params
  | begin => exact beginCall_params _
  | config r v => exact writeConfig_params _ r v

end Sys2Proof.Machine
end

section
/-! PROOFS. The invariant holds after reset and is kept by every effect of a move (rules R24, R25, R29, R37, R40,
R47, R220). -/

namespace Sys2Proof.Machine

/-! A call's legality and what a running call keeps -/

/-- Legality looks at the constants and the four configuration registers only. -/
theorem LegalCall.congr {s t : State} (h : LegalCall s) (hc : SameConfig s t) : LegalCall t := by
  obtain ⟨hpos, hle, hlen, hrange, hgroups⟩ := h
  refine ⟨?_, ?_, ?_, ?_, ?_⟩ <;>
    simpa only [State.payloadLen, hc.params, hc.base, hc.nrows, hc.rowlen, hc.bpp]

/-- A call that passes the entry checks and is not refused for its length is legal (rules R225, R229). -/
theorem legalCall_of_entryChecks {s : State} (hchecks : s.entryChecks = none)
    (hlen : s.lengthUnspecified = false) : LegalCall s := by
  simp only [State.entryChecks] at hchecks
  split_ifs at hchecks with hbig hzero hrows hrowlen hrange hstrict
  · exact ⟨by omega, by omega, .inl hrows, .inl hrows, .inl hrows⟩
  · have hgroups : s.lengthBad = false := by
      cases hs : s.params.strict
      · simpa [State.lengthUnspecified, hs, hrows] using hlen
      · simpa [hs] using hstrict
    exact ⟨by omega, by omega, .inr (by omega), .inr (by omega),
      .inr (by simpa [State.lengthBad] using hgroups)⟩

/-- A running call does not look at memory or at the host's side. -/
theorem Running.hostSide {s : State} (h : Running s) (m : Memory) (cmds : List HostCmd) (n : Nat) :
    Running { s with mem := m, host := cmds, readData := n } :=
  { h with legal := { h.legal with } }

/-- A running call that is not at its end has a row at the program counter. -/
theorem Running.row_lt {s : State} (h : Running s) (hrow : s.phase = .fetch → s.row ≠ s.nrows) :
    s.row < s.nrows := by
  by_cases hf : s.phase = .fetch
  · exact lt_of_le_of_ne h.row_le (hrow hf)
  · exact h.in_row hf

/-- The end of a row before the last advances `ROW` by one without wrap (rules R24, R194). -/
theorem EndsRow.row_succ {s t : State} (hend : EndsRow s t) (h : s.row < s.nrows)
    (hn : s.nrows < 2 ^ s.params.aw) : t.row = s.row + 1 :=
  hend.row_eq.trans (State.wrap_of_lt (by omega))

/-- The end of a row leaves a running call in order, at the next fetch (rules R29, R194). -/
theorem Running.endsRow {s t : State} (h : Running s) (hend : EndsRow s t) (hlt : s.row < s.nrows)
    (hrow : t.row = s.row + 1) : Running t := by
  obtain ⟨hc, -, hprev, hvalid, hphase, -, -, -⟩ := hend
  refine { legal := h.legal.congr hc.toConfig, config := ?_, row_le := ?_, sel_eq := ?_,
           prev_valid := ?_, prev_eq := fun _ => ?_, in_row := fun hp => absurd hphase hp,
           grp_le := ?_, reads_ok := ?_ }
  · rw [hc.written]; exact h.config
  · rw [hrow, hc.nrows]; exact hlt
  · rw [hc.sel, hc.params, hc.bpp]; exact h.sel_eq
  · simp [hvalid, hrow]
  · simp [hprev, hrow, State.payAddr, State.payAt, State.wrap_congr hc.params, hc.base, hc.rowlen]
  · simp [hphase]
  · simp [hphase]

/-- A call that begins with rows is in order (rule R181). -/
theorem running_beginCall {s : State} (hw : s.written.all = true) (hl : LegalCall s) (hn : s.nrows ≠ 0) :
    Running s.beginCall := by
  rw [beginCall_of_rows hn]
  exact { legal := { hl with }, config := hw, row_le := Nat.zero_le _, sel_eq := rfl, prev_valid := rfl,
          prev_eq := nofun, in_row := fun h => absurd rfl h, grp_le := nofun, reads_ok := nofun }

/-! The invariant, effect by effect -/

/-- The invariant looks at memory's form only, and not at the host's side. -/
theorem Inv.hostSide {s : State} (h : Inv s) {m : Memory} (hwf : m.wf = true)
    (hbelow : m.below (2 ^ s.params.aw) = true) (cmds : List HostCmd) (n : Nat) :
    Inv { s with mem := m, host := cmds, readData := n } :=
  { h with mem_wf := hwf, mem_below := hbelow, running := fun hb => (h.running hb).hostSide m cmds n }

/-- The end of a call keeps the invariant where `CAUSE` is 0 (rule R195). -/
theorem Inv.complete {s : State} (h : Inv s) (hc : s.cause = 0) : Inv s.complete :=
  { h with row_lt := s.wrap_lt _, grp_lt := s.wrap_lt _, prev_lt := s.wrap_lt _,
           cause_zero := fun _ => hc, cause_aborted := nofun, running := nofun }

/-- An abort keeps the invariant (rules R220, R227). -/
theorem Inv.raiseAbort {s : State} (h : Inv s) (c : Cause) : Inv (s.raiseAbort c) :=
  { h with row_lt := s.wrap_lt _, grp_lt := s.wrap_lt _, prev_lt := s.wrap_lt _,
           mem_wf := s.forgetBuffer_wf h.mem_wf, mem_below := s.forgetBuffer_below h.base_lt h.mem_below,
           cause_zero := fun hs => absurd rfl hs, cause_aborted := fun _ => State.causeCode_range c,
           running := nofun }

/-- The reset input keeps the invariant (rules R250, R252). -/
theorem Inv.resetInput {s : State} (h : Inv s) : Inv s.resetInput where
  params_wf := h.params_wf
  base_lt := s.wrap_lt _
  nrows_lt := s.wrap_lt _
  rowlen_lt := s.wrap_lt _
  row_lt := s.wrap_lt _
  grp_lt := s.wrap_lt _
  prev_lt := s.wrap_lt _
  mem_wf := by
    rw [State.resetInput_mem]
    split
    · exact s.forgetBuffer_wf h.mem_wf
    · exact h.mem_wf
  mem_below := by
    rw [State.resetInput_mem]
    split
    · exact s.forgetBuffer_below h.base_lt h.mem_below
    · exact h.mem_below
  cause_zero := fun _ => rfl
  cause_aborted := nofun
  running := nofun

/-- A configuration write keeps the invariant: it is cut to the register's width, and no call is running. -/
theorem Inv.writeConfig {s : State} (h : Inv s) (r : CReg) (v : Nat) : Inv (s.writeConfig r v) := by
  by_cases hb : s.status = .busy
  · rwa [writeConfig_of_busy hb]
  · simp only [State.writeConfig, hb, if_false]
    cases r with
    | base => exact { h with base_lt := s.wrap_lt v, running := fun hb' => absurd hb' hb }
    | nrows => exact { h with nrows_lt := s.wrap_lt v, running := fun hb' => absurd hb' hb }
    | rowlen => exact { h with rowlen_lt := s.wrap_lt v, running := fun hb' => absurd hb' hb }
    | bpp => exact { h with running := fun hb' => absurd hb' hb }
    | ctrl | status | cause | feat | sel | cfg => exact h

/-- The end of a row keeps the invariant (rules R24, R29, R194). -/
theorem Inv.endsRow {s t : State} (h : Inv s) (hbusy : s.status = .busy)
    (hrow : s.phase = .fetch → s.row ≠ s.nrows) (hend : EndsRow s t) : Inv t := by
  have hlt : s.row < s.nrows := (h.running hbusy).row_lt hrow
  have hsucc : t.row = s.row + 1 := hend.row_succ hlt h.nrows_lt
  have hc := hend.control
  have hstatus : t.status = .busy := hc.status.trans hbusy
  refine { params_wf := ?_, base_lt := ?_, nrows_lt := ?_, rowlen_lt := ?_, row_lt := ?_, grp_lt := ?_,
           prev_lt := ?_, mem_wf := hend.mem_wf h.mem_wf, mem_below := ?_, cause_zero := fun _ => ?_,
           cause_aborted := ?_, running := fun _ => (h.running hbusy).endsRow hend hlt hsucc }
  · rw [hc.params]; exact h.params_wf
  · rw [hc.base, hc.params]; exact h.base_lt
  · rw [hc.nrows, hc.params]; exact h.nrows_lt
  · rw [hc.rowlen, hc.params]; exact h.rowlen_lt
  · rw [hend.row_eq, hc.params]; exact s.wrap_lt _
  · rw [hc.params]; exact hend.grp_lt h.grp_lt
  · rw [hend.prev_eq, hc.params]; exact s.wrap_lt _
  · rw [hc.params]; exact hend.mem_below h.mem_below
  · rw [hc.cause]; exact h.cause_zero (by simp [hbusy])
  · simp [hstatus]

/-- The begin of a call keeps the invariant (rules R181, R182): with rows the call runs in order; without rows it
is over, as if it had ended in the idle state with `CAUSE` 0. -/
theorem Inv.beginCall {s : State} (h : Inv s) (hw : s.written.all = true) (hl : LegalCall s) :
    Inv s.beginCall := by
  by_cases hn : s.nrows = 0
  · have hidle : Inv { s with cause := 0, sel := selectAll s.params s.bpp.toNat, row := 0,
                              prevValid := false, status := .idle } :=
      { h with row_lt := Nat.two_pow_pos _, cause_zero := fun _ => rfl, cause_aborted := nofun,
               running := nofun }
    rw [beginCall_of_empty hn]
    exact hidle.complete rfl
  · have hrun : Running s.beginCall := running_beginCall hw hl hn
    rw [beginCall_of_rows hn] at hrun ⊢
    exact { h with row_lt := Nat.two_pow_pos _, cause_zero := fun _ => rfl, cause_aborted := nofun,
                   running := fun _ => hrun }

/-- Every effect of a move keeps the invariant. -/
theorem Effect.inv {started : Prop} {s t : State} (he : Effect started s t) (h : Inv s) : Inv t := by
  cases he with
  | nothing => exact h
  | done hbusy => exact h.complete (h.cause_zero (by simp [hbusy]))
  | row hbusy hrow hend => exact h.endsRow hbusy hrow hend
  | abort c => exact h.raiseAbort c
  | begin _ _ hwritten hchecks hlen => exact h.beginCall hwritten (legalCall_of_entryChecks hchecks hlen)
  | config r v => exact h.writeConfig r v
  | read n => exact h.hostSide h.mem_wf h.mem_below s.host n
  | store haddr v =>
    exact h.hostSide (Memory.write_wf _ _ _ h.mem_wf) (Memory.write_below _ _ haddr h.mem_below)
      s.host s.readData
  | reset => exact h.resetInput

/-- Settles O39, effect by effect. -/
theorem stepKeepsTheInvariant : Obligations.StepKeepsTheInvariant := by
  intro s t h hstep
  obtain ⟨rest, he⟩ := step_effect hstep
  exact he.inv (h.hostSide h.mem_wf h.mem_below rest s.readData)

/-- Settles O40: every register is 0, memory lists nothing and no call runs. -/
theorem resetHasTheInvariant : Obligations.ResetHasTheInvariant := by
  intro p hp
  exact
    { params_wf := hp, base_lt := Nat.two_pow_pos _, nrows_lt := Nat.two_pow_pos _,
      rowlen_lt := Nat.two_pow_pos _, row_lt := Nat.two_pow_pos _, grp_lt := Nat.two_pow_pos _,
      prev_lt := Nat.two_pow_pos _, mem_wf := rfl, mem_below := rfl, cause_zero := fun _ => rfl,
      cause_aborted := nofun, running := nofun }

/-- Where an effect ends `BUSY`, the call was running and `ROW` stayed or advanced below `NROWS`, or `START`
began it with `ROW` 0. -/
theorem Effect.row_of_busy {started : Prop} {s t : State} (he : Effect started s t) (h : Inv s)
    (hbusy : t.status = .busy) :
    (s.status = .busy ∧ (t.row = s.row ∨ (t.row = s.row + 1 ∧ s.row < s.nrows))) ∨
    (s.status ≠ .busy ∧ t.row = 0 ∧ started) := by
  cases he with
  | nothing | read | store => exact .inl ⟨hbusy, .inl rfl⟩
  | done | abort | reset => cases hbusy
  | row hb hrow hend =>
    have hlt : s.row < s.nrows := (h.running hb).row_lt hrow
    exact .inl ⟨hb, .inr ⟨hend.row_succ hlt h.nrows_lt, hlt⟩⟩
  | config r v =>
    rw [writeConfig_status] at hbusy
    exact .inl ⟨hbusy, .inl (writeConfig_row s r v)⟩
  | begin hstart hidle =>
    by_cases hn : s.nrows = 0
    · rw [beginCall_of_empty hn] at hbusy
      cases hbusy
    · refine .inr ⟨hidle, ?_, hstart⟩
      rw [beginCall_of_rows hn]

/-- Settles O41: the effects that end `BUSY`, one by one. -/
theorem rowNeverGoesBack : Obligations.RowNeverGoesBack := by
  intro s t h hstep hbusy
  obtain ⟨rest, he⟩ := step_effect hstep
  exact he.row_of_busy (h.hostSide h.mem_wf h.mem_below rest s.readData) hbusy

end Sys2Proof.Machine
end

section
/-! PROOFS. The control registers as the host sees them: reads, writes, `CTRL`, and what reset leaves (rules R31 to
R42, R47, R48). -/

namespace Sys2Proof.Machine

/-! The host's register commands -/

/-- With a register write at the head of the host's list, the step is that write. -/
theorem step_of_writeReg {s : State} {r : CReg} {v : Nat} {rest : List HostCmd}
    (h : s.host = .writeReg r v :: rest) : step s = State.hostWriteReg { s with host := rest } r v := by
  simp only [step, h, State.hostMove]

/-- With a register read at the head of the host's list, the step changes what the host got back only. -/
theorem step_of_readReg {s : State} {r : CReg} {rest : List HostCmd} (h : s.host = .readReg r :: rest) :
    step s = .next { s with host := rest, readData := s.readReg r } := by
  have hread : State.readReg { s with host := rest } r = s.readReg r := by cases r <;> rfl
  simp only [step, h, State.hostMove, hread]

/-- A `CTRL` write is `START` by bit 0 of the data, else nothing (rule R38). -/
theorem hostWriteReg_ctrl (s : State) (v : Nat) :
    s.hostWriteReg .ctrl v = if v % 2 = 1 then exec .start s else .next s := by
  by_cases hv : v % 2 = 1 <;>
    simp only [State.hostWriteReg, decodeCtrl, ctrl_start_bit, hv, decide_true, decide_false,
      Bool.false_eq_true, if_true, if_false]

/-- A write of another register is a configuration write (rule R48). -/
theorem hostWriteReg_of_ne_ctrl (s : State) {r : CReg} (hr : r ≠ .ctrl) (v : Nat) :
    s.hostWriteReg r v = .next (s.writeConfig r v) :=
  if_neg hr

/-- `START` while `BUSY` is ignored (rule R38). -/
theorem exec_start_of_busy {s : State} (h : s.status = .busy) : exec .start s = .next s := if_pos h

/-- Every register write while `BUSY` is dropped (rule R42). -/
theorem hostWriteReg_of_busy {s : State} (h : s.status = .busy) (r : CReg) (v : Nat) :
    s.hostWriteReg r v = .next s := by
  by_cases hr : r = .ctrl
  · rw [hr, hostWriteReg_ctrl, exec_start_of_busy h, ite_self]
  · rw [hostWriteReg_of_ne_ctrl s hr, writeConfig_of_busy h]

/-- With a register write at the head of the host's list, the step while `BUSY` uses that write up only. -/
theorem step_of_writeReg_busy {s : State} {r : CReg} {v : Nat} {rest : List HostCmd}
    (h : s.host = .writeReg r v :: rest) (hbusy : s.status = .busy) :
    step s = .next { s with host := rest } := by
  rw [step_of_writeReg h]
  exact hostWriteReg_of_busy (s := { s with host := rest }) hbusy r v

/-- Settles O6: the data's bit 0 decides, and `BUSY` drops every write. -/
theorem ctrlWriteIsStartOrNothing : Obligations.CtrlWriteIsStartOrNothing := by
  intro s v rest
  refine ⟨rfl, fun hhost => ⟨fun hodd _ => ?_, fun heven => ?_, step_of_writeReg_busy hhost⟩⟩
  · rw [step_of_writeReg hhost, hostWriteReg_ctrl, if_pos hodd]
  · rw [step_of_writeReg hhost, hostWriteReg_ctrl, if_neg (by omega)]

/-- Settles O45: `BUSY` drops every register write, and a register read is one assignment. -/
theorem writesWhileBusyAreIgnored : Obligations.WritesWhileBusyAreIgnored := by
  intro s r rest
  exact ⟨fun v => step_of_writeReg_busy, step_of_readReg⟩

/-- `START` with a configuration register unwritten is refused (rule R253). -/
theorem exec_start_of_unwritten {s : State} (hidle : s.status ≠ .busy) (hw : s.written.all = false) :
    exec .start s = .refused .configUnwritten :=
  (if_neg hidle).trans (if_pos hw)

/-- Settles O43: the reads are the reset state's fields, and nothing is written yet. -/
theorem resetLeavesTheEngineIdle : Obligations.ResetLeavesTheEngineIdle := by
  intro p
  exact ⟨rfl, rfl, rfl, rfl, rfl, rfl, exec_start_of_unwritten nofun rfl⟩

/-! The codes -/

/-- A `SEL` field's code has two bits (rule R37). -/
theorem kernelCode_lt (k : Kernel) : kernelCode k < 4 := by cases k <;> decide

/-- The five fields stand in their places in the ten bits of `SEL` (rule R48). -/
theorem Sel.bits_fields (s : Sel) :
    s.bits < 1024 ∧ s.bits % 4 = kernelCode s.sub ∧ s.bits / 4 % 4 = kernelCode s.up ∧
    s.bits / 16 % 4 = kernelCode s.avg ∧ s.bits / 64 % 4 = kernelCode s.avgtop ∧
    s.bits / 256 = kernelCode s.paeth := by
  have hsub := kernelCode_lt s.sub
  have hup := kernelCode_lt s.up
  have havg := kernelCode_lt s.avg
  have havgtop := kernelCode_lt s.avgtop
  have hpaeth := kernelCode_lt s.paeth
  simp only [Sel.bits]
  omega

/-- The codes of `STATUS.STATE` tell the four states apart (rule R39). -/
theorem statusCode_iff (c : CallState) :
    (statusCode c = 0 ↔ c = .idle) ∧ (statusCode c = 1 ↔ c = .busy) ∧ (statusCode c = 2 ↔ c = .done) ∧
    (statusCode c = 3 ↔ c = .aborted) := by
  cases c <;> decide

/-- `STATUS.STATE` has two bits. -/
theorem statusCode_lt (c : CallState) : statusCode c < 4 := by cases c <;> decide

/-- A bit of a bit vector is a digit of its value. -/
theorem toNat_div_mod_two_iff {w : Nat} (x : BitVec w) (i : Nat) :
    x.toNat / 2 ^ i % 2 = 1 ↔ x.getLsbD i = true := by
  rw [BitVec.getLsbD, Nat.testBit_eq_decide_div_mod_eq, decide_eq_true_iff]

/-- The bits of `FEAT` as the host reads them (rule R35). -/
theorem readReg_feat_bits (s : State) :
    (s.readReg .feat % 2 = 1 ↔ s.params.feat.getLsbD 0 = true) ∧
    (s.readReg .feat / 2 % 2 = 1 ↔ s.params.feat.getLsbD 1 = true) ∧
    (s.readReg .feat / 4 % 2 = 1 ↔ s.params.feat.getLsbD 2 = true) :=
  ⟨by simpa [State.readReg] using toNat_div_mod_two_iff s.params.feat 0, toNat_div_mod_two_iff s.params.feat 1,
    toNat_div_mod_two_iff s.params.feat 2⟩

/-- `CFG` has one bit. -/
theorem readReg_cfg_lt (s : State) : s.readReg .cfg < 2 := by
  simp only [State.readReg]
  split <;> decide

/-! The registers' writes -/

/-- A register other than `CTRL` written by the host: the step is the configuration write. -/
theorem step_of_writeConfig {s : State} {r : CReg} {v : Nat} {rest : List HostCmd} (hr : r ≠ .ctrl)
    (h : s.host = .writeReg r v :: rest) : step s = .next (State.writeConfig { s with host := rest } r v) := by
  rw [step_of_writeReg h, hostWriteReg_of_ne_ctrl _ hr]

/-- A write of a read-only register does nothing (rule R48). -/
theorem writeConfig_of_readOnly (s : State) {r : CReg} (v : Nat)
    (hr : r = .status ∨ r = .cause ∨ r = .feat ∨ r = .sel ∨ r = .cfg) : s.writeConfig r v = s := by
  rcases hr with rfl | rfl | rfl | rfl | rfl <;> exact ite_self s

/-- Settles O46: the reads by the codes' lemmas, the writes by the configuration write's cases. -/
theorem controlRegisterMap : Obligations.ControlRegisterMap := by
  intro s
  obtain ⟨hselLt, hsub, hup, havg, havgtop, hpaeth⟩ := s.sel.bits_fields
  refine ⟨fun h => ⟨h.base_lt, h.nrows_lt, h.rowlen_lt⟩, s.bpp.isLt, statusCode_lt _, s.cause.isLt,
    s.params.feat.isLt, hselLt, readReg_cfg_lt s, ⟨rfl, rfl, rfl, rfl, rfl⟩, statusCode_iff _, rfl,
    fun h => ⟨fun hs => congrArg BitVec.toNat (h.cause_zero hs), h.cause_aborted⟩, rfl,
    readReg_feat_bits s, rfl, ⟨rfl, rfl, rfl, rfl⟩, hsub, hup, havg, havgtop, hpaeth,
    fun v rest hidle => ?_, fun v r rest hr hhost => ?_⟩
  · refine ⟨fun hhost => ?_, fun hhost => ?_, fun hhost => ?_, fun hhost => ?_⟩ <;>
      exact (step_of_writeConfig (by decide) hhost).trans (congrArg _ (if_neg hidle))
  · have hne : r ≠ .ctrl := by rintro rfl; simp at hr
    rw [step_of_writeConfig hne hhost, writeConfig_of_readOnly _ v hr]

end Sys2Proof.Machine
end

section
/-! PROOFS. The host's access to memory (rules R44, R70, R256). -/

namespace Sys2Proof.Machine

/-- With a command at the head of the host's list, the step is that move of the host (log entry 8). -/
theorem step_of_host_cons {s : State} {c : HostCmd} {rest : List HostCmd} (h : s.host = c :: rest) :
    step s = State.hostMove { s with host := rest } c := by
  simp only [step, h]

/-- Settles O47: the step is the host's access to memory, whose tests do not look at the list of moves. -/
theorem bufferBelongsToPueWhileBusy : Obligations.BufferBelongsToPueWhileBusy := by
  intro s addr v rest
  exact ⟨step_of_host_cons, step_of_host_cons⟩

end Sys2Proof.Machine
end

section
/-! PROOFS. Where a row of a legal call reads and writes (rules R14, R153, R191, R202, R224): its addresses without
wrap, its groups counted, and the frame of its stores. -/

namespace Sys2Proof.Machine

/-! The addresses of a row of a legal call -/

/-- A row at the program counter is at least its tag (rule R14). -/
theorem RowReady.rowlen_pos {s : State} (h : RowReady s) : 1 ≤ s.rowlen :=
  h.legal.rowlen_pos.resolve_left (Nat.ne_zero_of_lt h.row_lt)

/-- A row at the program counter ends inside the address space (rule R224). -/
theorem RowReady.row_end_le {s : State} (h : RowReady s) :
    s.tagAt s.row + s.rowlen ≤ 2 ^ s.params.aw := by
  have hrange := h.legal.range.resolve_left (Nat.ne_zero_of_lt h.row_lt)
  have hrows : (s.row + 1) * s.rowlen ≤ s.nrows * s.rowlen := Nat.mul_le_mul_right _ h.row_lt
  rw [Nat.succ_mul] at hrows
  simp only [State.tagAt]
  omega

/-- The number of groups of a row is an AW-bit value. -/
theorem RowReady.groups_lt {s : State} (h : RowReady s) : s.groups < 2 ^ s.params.aw := by
  have hend := h.row_end_le
  have hpos := h.rowlen_pos
  have hle : s.groups ≤ s.rowlen - 1 := Nat.div_le_self _ _
  omega

/-- The tag's address does not wrap (rule R202). -/
theorem RowReady.tagAddr_eq {s : State} (h : RowReady s) : s.tagAddr = s.tagAt s.row := by
  have hend := h.row_end_le
  have hpos := h.rowlen_pos
  exact State.wrap_of_lt (show s.tagAt s.row < _ by omega)

/-- A lane of a group of the row is a byte of the payload (rule R191). -/
theorem lane_lt_payloadLen {s : State} {k : Nat} (hg : s.grp < s.groups) (hk : k < s.bpp.toNat) :
    s.grp * s.bpp.toNat + k < s.payloadLen := by
  have hgroups : s.groups * s.bpp.toNat ≤ s.payloadLen := Nat.div_mul_le_self _ _
  have hgrp : (s.grp + 1) * s.bpp.toNat ≤ s.groups * s.bpp.toNat := Nat.mul_le_mul_right _ hg
  rw [Nat.succ_mul] at hgrp
  omega

/-- Lane `k` of the current group stands at its payload byte, without wrap (rules R152, R202). -/
theorem RowReady.wrap_grpAddr_add {s : State} (h : RowReady s) {k : Nat} (hg : s.grp < s.groups)
    (hk : k < s.bpp.toNat) :
    s.wrap (s.grpAddr + k) = s.payAt s.row (s.grp * s.bpp.toNat + k) := by
  have hend := h.row_end_le
  have hlane := lane_lt_payloadLen hg hk
  simp only [State.payloadLen, State.tagAt] at hend hlane
  have hbase : s.grpAddr = s.base + s.row * s.rowlen + 1 + s.grp * s.bpp.toNat :=
    State.wrap_of_lt (by omega)
  rw [hbase, State.payAt, State.wrap_of_lt (by omega)]
  omega

/-- A payload byte of the row above stands below the row (rules R14, R60). -/
theorem payAt_pred_lt_tagAt {s : State} {j : Nat} (hrow : 0 < s.row) (hj : j < s.payloadLen) :
    s.payAt (s.row - 1) j < s.tagAt s.row := by
  obtain ⟨i, hi⟩ : ∃ i, s.row = i + 1 := Nat.exists_eq_succ_of_ne_zero hrow.ne'
  simp only [State.payloadLen] at hj
  simp only [State.payAt, State.tagAt, hi, Nat.add_sub_cancel, Nat.succ_mul]
  omega

/-- Lane `k` of the group above stands at its payload byte, without wrap (rules R29, R202). -/
theorem AboveReady.wrap_aboveAddr_add {s : State} (h : AboveReady s) {k : Nat} (hg : s.grp < s.groups)
    (hk : k < s.bpp.toNat) :
    s.wrap (s.aboveAddr + k) = s.payAt (s.row - 1) (s.grp * s.bpp.toNat + k) := by
  have hend := h.ready.row_end_le
  have hbelow := payAt_pred_lt_tagAt h.not_first (lane_lt_payloadLen hg hk)
  simp only [State.payAt] at hbelow
  have hprev : s.prev = s.payAt (s.row - 1) 0 :=
    h.prev_eq.trans (State.wrap_of_lt (by simp only [State.payAt]; omega))
  have hbase : s.aboveAddr = s.payAt (s.row - 1) 0 + s.grp * s.bpp.toNat := by
    rw [State.aboveAddr, hprev]
    exact State.wrap_of_lt (by simp only [State.payAt]; omega)
  rw [hbase, State.payAt, State.payAt, State.wrap_of_lt (by omega)]
  omega

/-! A group step inside the row: what it keeps and what it leaves unchanged -/

/-- A group step keeps a row ready. -/
theorem RowReady.advanceGroup {s : State} (h : RowReady s) (op : Filter) : RowReady (s.advanceGroup op) :=
  ⟨h.legal.congr (s.advanceGroup_control op).toConfig, h.row_lt, storeLanes_wf _ _ _ _ _ h.mem_wf⟩

/-- A group step keeps the row above in place. -/
theorem AboveReady.advanceGroup {s : State} (h : AboveReady s) (op : Filter) :
    AboveReady (s.advanceGroup op) :=
  ⟨h.ready.advanceGroup op, h.not_first, h.prev_eq⟩

/-- The row runs in another canonical memory too. -/
theorem RowReady.withMem {s : State} (h : RowReady s) {m : Memory} (hm : m.wf = true) :
    RowReady { s with mem := m } :=
  ⟨{ h.legal with }, h.row_lt, hm⟩

/-- `GRP` counts up to the number of groups without wrap (rule R191). -/
theorem RowReady.advanceGroup_grp {s : State} (h : RowReady s) (hg : s.grp < s.groups) (op : Filter) :
    (s.advanceGroup op).grp = s.grp + 1 :=
  State.wrap_of_lt (lt_of_le_of_lt hg h.groups_lt)

/-- A group step stores inside the row only (rules R62, R153). -/
theorem RowReady.advanceGroup_outside {s : State} (h : RowReady s) (hg : s.grp < s.groups) (op : Filter) :
    OutsideRowKept s (s.advanceGroup op) := by
  intro addr haddr
  refine read_storeLanes_outside _ _ _ _ _ fun k _ hk => ?_
  have hlane := lane_lt_payloadLen hg hk
  rw [h.wrap_grpAddr_add hg hk]
  simp only [State.payloadLen] at hlane
  simp only [State.tagAt] at haddr
  simp only [State.payAt]
  omega

/-- Group steps up to the row's last store inside the row only. -/
theorem RowReady.runGroups_outside {s : State} (h : RowReady s) (op : Filter) {n : Nat}
    (hn : s.grp + n ≤ s.groups) : OutsideRowKept s (State.runGroups op n s) := by
  induction n generalizing s with
  | zero => exact fun _ _ => rfl
  | succ n ih =>
    have hg : s.grp < s.groups := by omega
    have hgrp := h.advanceGroup_grp hg op
    have hleft : (s.advanceGroup op).grp + n ≤ s.groups := by omega
    have hrest := ih (h.advanceGroup op) hleft
    exact fun addr haddr => (hrest addr haddr).trans (h.advanceGroup_outside hg op addr haddr)

/-- The retire step stores the row's tag only (rule R194). -/
theorem RowReady.retireRow_outside {s : State} (h : RowReady s) : OutsideRowKept s s.retireRow := by
  intro addr haddr
  have hpos := h.rowlen_pos
  rw [State.retireRow_mem, State.wrap_tagAddr, h.tagAddr_eq]
  exact Memory.read_write_ne _ _ (by omega)

/-! A whole row, with its groups counted -/

/-- A `NOP` row is its begin and its retirement (rule R193). -/
theorem runRow_of_nop (s : State) {op : Op} (h : filterOf op = none) :
    s.runRow op = (s.beginRow op).retireRow := by
  simp [State.runRow, State.finishRow, h]

/-- A row that reconstructs is its begin, its groups and its retirement (rules R188, R191). -/
theorem RowReady.runRow_of_filter {s : State} (h : RowReady s) {op : Op} {f : Filter}
    (hf : filterOf op = some f) :
    s.runRow op = (State.runGroups f s.groups (s.beginRow op)).retireRow := by
  have hleft : (s.beginRow op).groupsLeft = s.groups := by
    show (s.groups + 2 ^ s.params.aw - 0) % 2 ^ s.params.aw = s.groups
    rw [Nat.sub_zero, Nat.add_mod_right, Nat.mod_eq_of_lt h.groups_lt]
  simp [State.runRow, State.finishRow, hf, hleft]

/-- The begin of a row keeps it ready. -/
theorem RowReady.beginRow {s : State} (h : RowReady s) (op : Op) : RowReady (s.beginRow op) :=
  ⟨{ h.legal with }, h.row_lt, h.mem_wf⟩

/-- Group steps keep a row ready. -/
theorem RowReady.runGroups {s : State} (h : RowReady s) (op : Filter) (n : Nat) :
    RowReady (State.runGroups op n s) := by
  induction n generalizing s with
  | zero => exact h
  | succ n ih => exact ih (h.advanceGroup op)

/-- Outside the same row kept twice is kept. -/
theorem OutsideRowKept.trans {s u t : State} (h : OutsideRowKept s u) (hc : SameControl s u)
    (hrow : u.row = s.row) (h' : OutsideRowKept u t) : OutsideRowKept s t := by
  intro addr haddr
  refine (h' addr ?_).trans (h addr haddr)
  simpa only [State.tagAt, hc.base, hc.rowlen, hrow] using haddr

/-- A row writes inside itself only (rule R62). -/
theorem RowReady.runRow_outside {s : State} (h : RowReady s) (op : Op) : OutsideRowKept s (s.runRow op) := by
  have hbegin := h.beginRow op
  cases hf : filterOf op with
  | none =>
    rw [runRow_of_nop s hf]
    exact hbegin.retireRow_outside
  | some f =>
    have hgroups : OutsideRowKept (s.beginRow op) (State.runGroups f s.groups (s.beginRow op)) :=
      hbegin.runGroups_outside f (Nat.zero_add s.groups).le
    rw [h.runRow_of_filter hf]
    exact hgroups.trans (State.runGroups_control f _ _) (State.runGroups_seq f _ _).1
      (hbegin.runGroups f _).retireRow_outside

end Sys2Proof.Machine
end

section
/-! PROOFS. A row in two memories that agree on what it reads (rule R62). -/

namespace Sys2Proof.Machine

/-- The canonical memory `m` reads as the state's own in the row at the program counter and, if the row's
operation reads the row above, in that row's payload. -/
structure AgreesForRow (above : Prop) (s : State) (m : Memory) : Prop where
  mem_wf  : m.wf = true
  row     : ∀ addr, s.tagAt s.row ≤ addr → addr < s.tagAt s.row + s.rowlen → m.read addr = s.mem.read addr
  payload : above → AboveReady s ∧
    ∀ j < s.payloadLen, m.read (s.payAt (s.row - 1) j) = s.mem.read (s.payAt (s.row - 1) j)

/-- Memories that agree on the active lanes' bytes load the same group (rule R152). -/
theorem loadGroup_withMem {s : State} {m : Memory} {addr : Nat}
    (h : ∀ k < s.bpp.toNat, m.read (s.wrap (addr + k)) = s.mem.read (s.wrap (addr + k))) :
    State.loadGroup { s with mem := m } addr = s.loadGroup addr := by
  refine Lanes.ext_get fun k => ?_
  simp only [State.loadGroup, Lanes.get_ofFn]
  split
  · exact h _ ‹_›
  · rfl

/-- One group stored to two canonical memories leaves them agreeing where they agreed before (rule R153). -/
theorem read_storeLanes_congr {addrOf : Nat → Nat} {n : Nat} {r : Lanes Byte} {ks : List (Fin 8)}
    {m m' : Memory} (hm : m.wf = true) (hm' : m'.wf = true) {addr : Nat} (h : m'.read addr = m.read addr) :
    (Memory.storeLanes addrOf n r ks m').read addr = (Memory.storeLanes addrOf n r ks m).read addr := by
  induction ks generalizing m m' with
  | nil => exact h
  | cons k ks ih =>
    simp only [Memory.storeLanes]
    split
    · refine ih (Memory.write_wf _ _ _ hm) (Memory.write_wf _ _ _ hm') ?_
      rw [Memory.read_write _ _ _ _ hm, Memory.read_write _ _ _ _ hm', h]
    · exact ih hm hm' h

section
variable {s : State} {m : Memory} {op : Filter}

/-- The current group reads alike in both memories (rule R192). -/
theorem AgreesForRow.loadGroup_grpAddr {above : Prop} (h : AgreesForRow above s m) (hready : RowReady s)
    (hg : s.grp < s.groups) :
    State.loadGroup { s with mem := m } s.grpAddr = s.loadGroup s.grpAddr := by
  refine loadGroup_withMem fun k hk => ?_
  have hlane := lane_lt_payloadLen hg hk
  simp only [State.payloadLen] at hlane
  rw [hready.wrap_grpAddr_add hg hk]
  exact h.row _ (by simp only [State.tagAt, State.payAt]; omega)
    (by simp only [State.tagAt, State.payAt]; omega)

/-- The group above, where the operation reads it, reads alike in both memories (rule R192). -/
theorem AgreesForRow.aboveGroup (h : AgreesForRow (readsAbove op = true) s m) (hg : s.grp < s.groups) :
    State.aboveGroup { s with mem := m } op = s.aboveGroup op := by
  by_cases ha : readsAbove op = true
  · obtain ⟨hready, hpayload⟩ := h.payload ha
    simp only [State.aboveGroup, ha, if_true]
    refine loadGroup_withMem (addr := s.aboveAddr) fun k hk => ?_
    rw [hready.wrap_aboveAddr_add hg hk]
    exact hpayload _ (lane_lt_payloadLen hg hk)
  · exact (if_neg ha).trans (if_neg ha).symm

/-- A group step in the other memory stores the same group and leaves the same registers (rule R192). -/
theorem AgreesForRow.advanceGroup_withMem (h : AgreesForRow (readsAbove op = true) s m) (hready : RowReady s)
    (hg : s.grp < s.groups) :
    State.advanceGroup { s with mem := m } op = { s.advanceGroup op with
      mem := Memory.storeLanes (fun k => s.wrap (s.grpAddr + k)) s.bpp.toNat (s.reconstructed op)
        laneIndices m } := by
  have hf := h.loadGroup_grpAddr hready hg
  have hb := h.aboveGroup hg
  have hx : State.reconstructed { s with mem := m } op = s.reconstructed op := by
    simp only [State.reconstructed]
    rw [← hf, ← hb]
    rfl
  simp only [State.advanceGroup, State.groupStep, hx, hb]
  rw [← hf]
  rfl

/-- A group step leaves two memories that agree on what the row reads agreeing on it. -/
theorem AgreesForRow.advanceGroup (h : AgreesForRow (readsAbove op = true) s m) (hready : RowReady s)
    (hg : s.grp < s.groups) :
    ∃ m', State.advanceGroup { s with mem := m } op = { s.advanceGroup op with mem := m' } ∧
      AgreesForRow (readsAbove op = true) (s.advanceGroup op) m' := by
  have hstep := h.advanceGroup_withMem hready hg
  have hkept := hready.advanceGroup_outside hg op
  have hkept' := (hready.withMem h.mem_wf).advanceGroup_outside hg op
  rw [hstep] at hkept'
  refine ⟨_, hstep, storeLanes_wf _ _ _ _ _ h.mem_wf, fun addr hlo hhi => ?_, fun ha => ?_⟩
  · exact read_storeLanes_congr hready.mem_wf h.mem_wf (h.row addr hlo hhi)
  · obtain ⟨habove, hpayload⟩ := h.payload ha
    refine ⟨habove.advanceGroup op, fun j hj => ?_⟩
    have hbelow := payAt_pred_lt_tagAt habove.not_first hj
    calc _ = m.read (s.payAt (s.row - 1) j) := hkept' _ (.inl hbelow)
      _ = s.mem.read (s.payAt (s.row - 1) j) := hpayload j hj
      _ = _ := (hkept _ (.inl hbelow)).symm

/-- The groups of a row leave two memories that agree on what the row reads agreeing on it. -/
theorem AgreesForRow.runGroups (h : AgreesForRow (readsAbove op = true) s m) (hready : RowReady s) {n : Nat}
    (hn : s.grp + n ≤ s.groups) :
    ∃ m', State.runGroups op n { s with mem := m } = { State.runGroups op n s with mem := m' } ∧
      AgreesForRow (readsAbove op = true) (State.runGroups op n s) m' := by
  induction n generalizing s m with
  | zero => exact ⟨m, rfl, h⟩
  | succ n ih =>
    have hg : s.grp < s.groups := by omega
    have hgrp := hready.advanceGroup_grp hg op
    have hleft : (s.advanceGroup op).grp + n ≤ s.groups := by omega
    obtain ⟨m₁, hstep, h₁⟩ := h.advanceGroup hready hg
    rw [State.runGroups, hstep]
    exact ih h₁ (hready.advanceGroup op) hleft

/-- The retire step writes the same tag to both memories (rule R194). -/
theorem AgreesForRow.retireRow {above : Prop} (h : AgreesForRow above s m) (hready : RowReady s) :
    ∃ m', State.retireRow { s with mem := m } = { s.retireRow with mem := m' } ∧
      ∀ addr, s.tagAt s.row ≤ addr → addr < s.tagAt s.row + s.rowlen →
        m'.read addr = s.retireRow.mem.read addr := by
  refine ⟨m.write (s.wrap s.tagAddr) 0, rfl, fun addr hlo hhi => ?_⟩
  rw [State.retireRow_mem, Memory.read_write _ _ _ _ h.mem_wf, Memory.read_write _ _ _ _ hready.mem_wf,
    h.row addr hlo hhi]

end

/-- The begin of a row reads no memory and keeps what the row will read. -/
theorem AgreesForRow.beginRow {above above' : Prop} {s : State} {m : Memory} (h : AgreesForRow above s m)
    (himp : above' → above) (op : Op) : AgreesForRow above' (s.beginRow op) m where
  mem_wf := h.mem_wf
  row := h.row
  payload ha := by
    obtain ⟨⟨hready, hfirst, hprev⟩, hpayload⟩ := h.payload (himp ha)
    exact ⟨⟨hready.beginRow op, hfirst, hprev⟩, hpayload⟩

/-- A row run in two memories that agree on what it reads leaves states that differ in memory only, and there
not on the row (rule R62). -/
theorem AgreesForRow.runRow {s : State} {m : Memory} {op : Op}
    (h : AgreesForRow (∃ f, filterOf op = some f ∧ readsAbove f = true) s m) (hready : RowReady s) :
    ∃ m', State.runRow { s with mem := m } op = { s.runRow op with mem := m' } ∧
      ∀ addr, s.tagAt s.row ≤ addr → addr < s.tagAt s.row + s.rowlen →
        m'.read addr = (s.runRow op).mem.read addr := by
  have hbegin := hready.beginRow op
  cases hf : filterOf op with
  | none =>
    rw [runRow_of_nop _ hf, runRow_of_nop _ hf]
    exact (h.beginRow id op).retireRow hbegin
  | some f =>
    have hagree : AgreesForRow (readsAbove f = true) (s.beginRow op) m := h.beginRow (fun ha => ⟨f, hf, ha⟩) op
    obtain ⟨m₁, hgroups, h₁⟩ := hagree.runGroups hbegin (n := s.groups) (Nat.zero_add s.groups).le
    obtain ⟨m₂, hretire, hrow⟩ := h₁.retireRow (hbegin.runGroups f s.groups)
    have hc := State.runGroups_control f s.groups (s.beginRow op)
    have hr := (State.runGroups_seq f s.groups (s.beginRow op)).1
    simp only [State.tagAt, hc.base, hc.rowlen, hr] at hrow
    rw [(hready.withMem h.mem_wf).runRow_of_filter hf, hready.runRow_of_filter hf]
    exact ⟨m₂, (congrArg State.retireRow hgroups).trans hretire, hrow⟩

/-- Settles O19: a row instruction is its operation's row, which two memories that agree on what it reads run
alike, and which stores inside itself in either. -/
theorem rowReadsOnlyItselfAndTheRowAbove : Obligations.RowReadsOnlyItselfAndTheRowAbove := by
  intro i s m hi hready hm hrow habove
  obtain ⟨op, hop⟩ := op_of_ne_start hi
  have hagree : AgreesForRow (∃ f, filterOf op = some f ∧ readsAbove f = true) s m :=
    ⟨hm, hrow, fun ⟨f, hf, ha⟩ => habove f (by rw [hop]; exact hf) ha⟩
  obtain ⟨m', hrun, hkept⟩ := hagree.runRow hready
  have hout := (hready.withMem hm).runRow_outside op
  rw [hrun] at hout
  exact ⟨s.runRow op, { s.runRow op with mem := m' }, exec_row hop s, (exec_row hop _).trans (congrArg _ hrun),
    rfl, hkept, hready.runRow_outside op, hout⟩

end Sys2Proof.Machine
end

section
/-! PROOFS. The encoding: the reserved rows as ranges of tags, and decode and encode each undoing the other
(rules R95 to R98, R101, R103). -/

namespace Sys2Proof

/-! The reserved rows' masks as ranges of tags (rule R101) -/

/-- A mask of the bits from `k` up matches a tag by its value with the low `k` bits cleared. -/
theorem tagMatches_allOnes_shiftLeft_iff (k : Nat) (pattern tag : Byte) :
    tagMatches (BitVec.allOnes 8 <<< k) pattern tag = true ↔ tag.toNat / 2 ^ k * 2 ^ k = pattern.toNat := by
  have hlt : tag.toNat / 2 ^ k * 2 ^ k < 2 ^ 8 := (Nat.div_mul_le_self _ _).trans_lt tag.isLt
  rw [tagMatches, beq_iff_eq, ← BitVec.shiftLeft_ushiftRight, ← BitVec.toNat_inj, BitVec.toNat_shiftLeft,
    BitVec.toNat_ushiftRight, Nat.shiftRight_eq_div_pow, Nat.shiftLeft_eq, Nat.mod_eq_of_lt hlt]

/-- `RSVD.06_07` is the tags 6 and 7. -/
theorem tagMatches_rsvd06to07_iff (tag : Byte) :
    tagMatches 0xFE 0x06 tag = true ↔ 6 ≤ tag.toNat ∧ tag.toNat < 8 :=
  (tagMatches_allOnes_shiftLeft_iff 1 0x06 tag).trans (by simp only [BitVec.reduceToNat]; omega)

/-- `RSVD.08_0F` is the tags 8 to 15. -/
theorem tagMatches_rsvd08to0F_iff (tag : Byte) :
    tagMatches 0xF8 0x08 tag = true ↔ 8 ≤ tag.toNat ∧ tag.toNat < 16 :=
  (tagMatches_allOnes_shiftLeft_iff 3 0x08 tag).trans (by simp only [BitVec.reduceToNat]; omega)

/-- `RSVD.10_1F` is the tags 16 to 31. -/
theorem tagMatches_rsvd10to1F_iff (tag : Byte) :
    tagMatches 0xF0 0x10 tag = true ↔ 16 ≤ tag.toNat ∧ tag.toNat < 32 :=
  (tagMatches_allOnes_shiftLeft_iff 4 0x10 tag).trans (by simp only [BitVec.reduceToNat]; omega)

/-- `RSVD.20_3F` is the tags 32 to 63. -/
theorem tagMatches_rsvd20to3F_iff (tag : Byte) :
    tagMatches 0xE0 0x20 tag = true ↔ 32 ≤ tag.toNat ∧ tag.toNat < 64 :=
  (tagMatches_allOnes_shiftLeft_iff 5 0x20 tag).trans (by simp only [BitVec.reduceToNat]; omega)

/-- `RSVD.40_7F` is the tags 64 to 127. -/
theorem tagMatches_rsvd40to7F_iff (tag : Byte) :
    tagMatches 0xC0 0x40 tag = true ↔ 64 ≤ tag.toNat ∧ tag.toNat < 128 :=
  (tagMatches_allOnes_shiftLeft_iff 6 0x40 tag).trans (by simp only [BitVec.reduceToNat]; omega)

/-- `RSVD.80_FF` is the tags 128 to 255. -/
theorem tagMatches_rsvd80toFF_iff (tag : Byte) : tagMatches 0x80 0x80 tag = true ↔ 128 ≤ tag.toNat :=
  (tagMatches_allOnes_shiftLeft_iff 7 0x80 tag).trans
    (by simp only [BitVec.reduceToNat]; omega)

/-- A tag above 4 is decoded by the reserved rows, whatever the first-row flag (rule R98). -/
theorem decodeRow_of_five_le {tag : Byte} (h : 5 ≤ tag.toNat) (first : Bool) :
    decodeRow first tag = decodeReserved tag := by
  have hne (v : Byte) (hv : v.toNat < 5) : tag ≠ v := fun he => by rw [he] at h; omega
  rw [decodeRow, if_neg (hne 0 (by decide)), if_neg (hne 1 (by decide)), if_neg (hne 2 (by decide)),
    if_neg (hne 3 (by decide)), if_neg (hne 4 (by decide))]

/-- The reserved rows tell the tags above 4 apart by their ranges (rule R101). -/
theorem decodeReserved_eq (tag : Byte) : decodeReserved tag =
    if tag.toNat = 5 then .rsvd05
    else if 6 ≤ tag.toNat ∧ tag.toNat < 8 then .rsvd06to07 tag
    else if 8 ≤ tag.toNat ∧ tag.toNat < 16 then .rsvd08to0F tag
    else if 16 ≤ tag.toNat ∧ tag.toNat < 32 then .rsvd10to1F tag
    else if 32 ≤ tag.toNat ∧ tag.toNat < 64 then .rsvd20to3F tag
    else if 64 ≤ tag.toNat ∧ tag.toNat < 128 then .rsvd40to7F tag
    else .rsvd80toFF tag := by
  have h5 : tag = 5 ↔ tag.toNat = 5 := BitVec.toNat_inj.symm
  simp only [decodeReserved, h5, tagMatches_rsvd06to07_iff, tagMatches_rsvd08to0F_iff,
    tagMatches_rsvd10to1F_iff, tagMatches_rsvd20to3F_iff, tagMatches_rsvd40to7F_iff]

/-! Decode after encode -/

/-- The encoder's pairs are an instruction's places with its byte. -/
theorem mem_encode_iff {i : Instr} {p : Space × Byte} :
    p ∈ encode i ↔ p.1 ∈ encodeSpaces i ∧ p.2 = encodeByte i := by
  obtain ⟨sp, b⟩ := p
  simp [encode, eq_comm]

/-- In a row's place the decoder is the tag decode (rule R28). -/
theorem decode_rowSpace (first : Bool) (b : Byte) : decode (rowSpace first) b = .ok (decodeRow first b) := by
  cases first <;> rfl

/-- Only `START` is written to `CTRL` (rule R101). -/
theorem ctrl_mem_encodeSpaces_iff {i : Instr} : .ctrl ∈ encodeSpaces i ↔ i = .start := by
  cases i <;> simp [encodeSpaces]

/-- The tag of a well-formed instruction decodes to it in each of its rows' places (rules R95, R96, R103). -/
theorem decodeRow_encodeByte {i : Instr} (hwf : i.wf = true) {first : Bool}
    (hplace : rowSpace first ∈ encodeSpaces i) : decodeRow first (encodeByte i) = i := by
  cases i with
  | noneTag | sub | rsvd05 => rfl
  | up | avg | paeth =>
    cases first with
    | false => rfl
    | true => simp [rowSpace, encodeSpaces] at hplace
  | upFirst | avgTop | paethFirst =>
    cases first with
    | false => simp [rowSpace, encodeSpaces] at hplace
    | true => rfl
  | start => cases first <;> simp [rowSpace, encodeSpaces] at hplace
  | rsvd06to07 t | rsvd08to0F t | rsvd10to1F t | rsvd20to3F t | rsvd40to7F t | rsvd80toFF t =>
    simp only [Instr.wf, tagMatches_rsvd06to07_iff, tagMatches_rsvd08to0F_iff, tagMatches_rsvd10to1F_iff,
      tagMatches_rsvd20to3F_iff, tagMatches_rsvd40to7F_iff, tagMatches_rsvd80toFF_iff] at hwf
    have hreserved : 5 ≤ t.toNat := by omega
    simp (disch := omega) only [encodeByte, decodeRow_of_five_le hreserved, decodeReserved_eq, if_pos, if_neg]

/-- Every encoded byte of a well-formed instruction decodes to it, in every place (rules R95, R96, R101,
R103). -/
theorem decode_of_mem_encode {i : Instr} (hwf : i.wf = true) {p : Space × Byte} (hp : p ∈ encode i) :
    decode p.1 p.2 = .ok i := by
  obtain ⟨sp, b⟩ := p
  obtain ⟨hplace, rfl⟩ := mem_encode_iff.mp hp
  cases sp with
  | rowFirst => exact congrArg Except.ok (decodeRow_encodeByte (first := true) hwf hplace)
  | rowLater => exact congrArg Except.ok (decodeRow_encodeByte (first := false) hwf hplace)
  | ctrl =>
    obtain rfl := ctrl_mem_encodeSpaces_iff.mp hplace
    rfl

/-! Encode after decode -/

/-- A tag in its place encodes the well-formed instruction `i`. -/
def TagEncodes (first : Bool) (tag : Byte) (i : Instr) : Prop :=
  i.wf = true ∧ (rowSpace first, tag) ∈ encode i

/-- An instruction that stands in both rows' places is encoded by its tag in either. -/
theorem mem_encode_of_encodeSpaces {i : Instr} (h : encodeSpaces i = [.rowFirst, .rowLater]) (first : Bool) :
    (rowSpace first, encodeByte i) ∈ encode i := by
  refine mem_encode_iff.mpr ⟨?_, rfl⟩
  rw [h]
  cases first <;> simp [rowSpace]

/-- A tag above 4 encodes the reserved row it decodes to (rules R98, R101). -/
theorem tagEncodes_decodeReserved (first : Bool) {tag : Byte} (h : 5 ≤ tag.toNat) :
    TagEncodes first tag (decodeReserved tag) := by
  rw [decodeReserved_eq]
  split_ifs with h05 h06 h08 h10 h20 h40
  · obtain rfl : tag = 5 := BitVec.toNat_inj.mp h05
    exact ⟨rfl, mem_encode_of_encodeSpaces rfl first⟩
  · exact ⟨(tagMatches_rsvd06to07_iff tag).mpr h06, mem_encode_of_encodeSpaces rfl first⟩
  · exact ⟨(tagMatches_rsvd08to0F_iff tag).mpr h08, mem_encode_of_encodeSpaces rfl first⟩
  · exact ⟨(tagMatches_rsvd10to1F_iff tag).mpr h10, mem_encode_of_encodeSpaces rfl first⟩
  · exact ⟨(tagMatches_rsvd20to3F_iff tag).mpr h20, mem_encode_of_encodeSpaces rfl first⟩
  · exact ⟨(tagMatches_rsvd40to7F_iff tag).mpr h40, mem_encode_of_encodeSpaces rfl first⟩
  · have h80 : 128 ≤ tag.toNat := by omega
    exact ⟨(tagMatches_rsvd80toFF_iff tag).mpr h80, mem_encode_of_encodeSpaces rfl first⟩

/-- Every tag, in either mode, encodes the instruction it decodes to (rules R95, R96, R97). -/
theorem tagEncodes_decodeRow (first : Bool) (tag : Byte) : TagEncodes first tag (decodeRow first tag) := by
  by_cases h : 5 ≤ tag.toNat
  · rw [decodeRow_of_five_le h]
    exact tagEncodes_decodeReserved first h
  · have hsmall : tag = 0 ∨ tag = 1 ∨ tag = 2 ∨ tag = 3 ∨ tag = 4 := by bv_omega
    rcases hsmall with rfl | rfl | rfl | rfl | rfl <;> cases first <;> exact ⟨rfl, by decide⟩

/-- Data for `CTRL` is `START` by bit 0, else it is rejected (rules R38, R48). -/
theorem decode_ctrl (data : Byte) :
    decode .ctrl data = if data.toNat % 2 = 1 then .ok .start else .error .startBitClear := by
  have hbit := Machine.ctrl_start_bit data.toNat
  rw [BitVec.ofNat_toNat, BitVec.setWidth_eq] at hbit
  simp only [decode, decodeCtrl, hbit, decide_eq_true_eq]

/-- Settles O1: decode after encode, encode after decode, and the data for `CTRL`. -/
theorem decodeAndEncodeAgree : Obligations.DecodeAndEncodeAgree :=
  ⟨fun _ hwf _ hp => decode_of_mem_encode hwf hp, tagEncodes_decodeRow, decode_ctrl⟩

end Sys2Proof
end

section
/-! PROOFS. The operation of every tag, and that no tag is illegal (rules R97, R98). -/

namespace Sys2Proof.Machine

/-- A tag above 4 has the operation `NOP`, in either mode (rule R98). -/
theorem decodeRow_op_of_five_le {tag : Byte} (h : 5 ≤ tag.toNat) (first : Bool) :
    (decodeRow first tag).op = some .nop := by
  rw [decodeRow_of_five_le h, decodeReserved_op]

/-- A row instruction completes with `STATE` and `CAUSE` unchanged (rule R98). -/
theorem exec_row_keeps_status {i : Instr} {op : Op} (h : i.op = some op) (s : State) :
    ∃ t, exec i s = .next t ∧ t.status = s.status ∧ t.cause = s.cause := by
  obtain ⟨hc, -⟩ := s.runRow_spec op
  exact ⟨s.runRow op, exec_row h s, hc.status, hc.cause⟩

/-- Instructions of one operation have one meaning (rules R95, R96). -/
theorem exec_eq_of_op_eq {i j : Instr} {op : Op} (hi : i.op = some op) (hj : j.op = some op) (s : State) :
    exec i s = exec j s :=
  (exec_row hi s).trans (exec_row hj s).symm

/-- Settles O4: every tag is a row instruction, and a reserved one has the operation of tag 0. -/
theorem noTagIsIllegal : Obligations.NoTagIsIllegal := by
  intro first tag s
  obtain ⟨op, hop⟩ := decodeRow_op first tag
  exact ⟨exec_row_keeps_status hop s, fun h => exec_eq_of_op_eq (decodeRow_op_of_five_le h first) rfl s⟩

/-- Settles O2: after tag 0 the decoder asks for the tags in the rule's order, and the reserved rows are
`NOP`. -/
theorem tagDecodeIsTheDecodeFunction : Obligations.TagDecodeIsTheDecodeFunction := by
  intro first tag
  by_cases h0 : tag = 0
  · rw [h0]
    rfl
  · simp only [decodeRow, h0, if_false, apply_ite Instr.op, decodeReserved_op]
    simp only [Instr.op, apply_ite some]

end Sys2Proof.Machine
end

section
/-! PROOFS. A whole call, row by row, packaged once: from its launch premises a call runs each of its rows from
the fetch and ends in `DONE`; and what its rows keep, the call keeps (rules R181, R182, R188, R195). -/

namespace Sys2Proof.Machine

/-! From the `CTRL` write to the fetch of row 0 -/

/-- The state at the fetch of row 0 of a call made in `s`, all of the host's moves used up (rule R181). -/
def State.launched (s : State) : State :=
  { s with host := [], cause := 0, sel := selectAll s.params s.bpp.toNat, row := 0, prevValid := false,
           status := .busy, phase := .fetch }

/-- A legal call passes the entry checks and is not refused for its length (rules R225, R229). -/
theorem LegalCall.entryChecks {s : State} (h : LegalCall s) :
    s.entryChecks = none ∧ s.lengthUnspecified = false := by
  obtain ⟨hpos, hle, hlen, hrange, hgroups⟩ := h
  have hbig : ¬ 8 < s.bpp.toNat := by omega
  have hzero : s.bpp.toNat ≠ 0 := by omega
  by_cases hn : s.nrows = 0
  · simp [State.entryChecks, State.lengthUnspecified, hbig, hzero, hn]
  · have hrowlen : s.rowlen ≠ 0 := Nat.ne_zero_of_lt (hlen.resolve_left hn)
    have hfits : ¬ 2 ^ s.params.aw < s.base + s.nrows * s.rowlen := not_lt.mpr (hrange.resolve_left hn)
    have hwhole : s.lengthBad = false := by simp [State.lengthBad, hgroups.resolve_left hn]
    simp [State.entryChecks, State.lengthUnspecified, hbig, hzero, hn, hrowlen, hfits, hwhole]

/-- Under the launch premises `START` begins the call (rules R181, R255). -/
theorem LaunchPremises.exec_start {s : State} (h : LaunchPremises s) : exec .start s = .next s.beginCall := by
  obtain ⟨hidle, hconfig, hlegal⟩ := h
  obtain ⟨hchecks, hlen⟩ := hlegal.entryChecks
  simp [exec, execStart, hidle, hconfig, hchecks, hlen]

/-- Under the launch premises the host's `CTRL` write begins the call. -/
theorem LaunchPremises.step_call {s : State} (h : LaunchPremises s) :
    step s.call = .next (State.beginCall { s with host := [] }) := by
  have hpremises : LaunchPremises { s with host := [] } := { h with legal := { h.legal with } }
  have hwrite : step s.call = State.hostWriteReg { s with host := [] } .ctrl 1 := step_of_writeReg rfl
  rw [hwrite, hostWriteReg_ctrl]
  exact hpremises.exec_start

/-- With rows the call begins at the fetch of row 0 (rule R181). -/
theorem beginCall_eq_launched {s : State} (h : s.nrows ≠ 0) :
    State.beginCall { s with host := [] } = s.launched :=
  beginCall_of_rows h

/-- Without rows the call is over as it begins (rule R182). -/
theorem beginCall_eq_launched_complete {s : State} (h : s.nrows = 0) :
    State.beginCall { s with host := [] } = s.launched.complete :=
  beginCall_of_empty h

/-! At the fetch of a row -/

/-- PUE has every move and the call is at the fetch of a row, in order. -/
structure AtFetch (s : State) : Prop where
  inv   : Inv s
  host  : s.host = []
  busy  : s.status = .busy
  fetch : s.phase = .fetch

/-- The launched call is at a fetch. -/
theorem LaunchPremises.atFetch_launched {s : State} (h : LaunchPremises s) (hinv : Inv s) :
    AtFetch s.launched where
  inv :=
    { hinv with
      row_lt := Nat.two_pow_pos _, cause_zero := fun _ => rfl, cause_aborted := nofun,
      running := fun _ =>
        { legal := { h.legal with }, config := h.config, row_le := Nat.zero_le _, sel_eq := rfl,
          prev_valid := rfl, prev_eq := nofun, in_row := fun hp => absurd rfl hp, grp_le := nofun,
          reads_ok := nofun } }
  host := rfl
  busy := rfl
  fetch := rfl

section
variable {s : State} (h : AtFetch s)
include h

/-- A call at a fetch is in order. -/
theorem AtFetch.running : Running s := h.inv.running h.busy

/-- At the end of the buffer the step completes the call (rule R195). -/
theorem AtFetch.step_at_end (hrow : s.row = s.nrows) : step s = .next s.complete := by
  simp [step_of_host_nil h.host, State.pueMove, h.busy, h.fetch, hrow]

/-- Before the end of the buffer the step runs the row at the program counter (rules R28, R189). -/
theorem AtFetch.step_row (hrow : s.row ≠ s.nrows) {op : Op} (hop : s.fetchInstr.op = some op) :
    step s = .next (s.runRow op) := by
  simp [step_of_host_nil h.host, State.pueMove, h.busy, h.fetch, hrow, exec_row hop]

/-- A row at the program counter is ready to run. -/
theorem AtFetch.rowReady (hrow : s.row < s.nrows) : RowReady s := ⟨h.running.legal, hrow, h.inv.mem_wf⟩

/-- A row leaves the call at the fetch of the next row. -/
theorem AtFetch.runRow (hrow : s.row < s.nrows) (op : Op) :
    AtFetch (s.runRow op) ∧ (s.runRow op).row = s.row + 1 := by
  have hend := endsRow_runRow s op
  have hinv := h.inv.endsRow h.busy (fun _ => hrow.ne) hend
  exact ⟨⟨hinv, hend.control.host.trans h.host, hend.control.status.trans h.busy, hend.phase_eq⟩,
    hend.row_succ hrow h.inv.nrows_lt⟩

/-- A call that is over has the invariant and, its configuration kept, the launch premises again (rule R195). -/
theorem AtFetch.complete : Inv s.complete ∧ LaunchPremises s.complete :=
  ⟨h.inv.complete (h.inv.cause_zero (by simp [h.busy])), nofun, h.running.config, { h.running.legal with }⟩

end

/-! The rows of a call, and the call -/

/-- Every row of a call keeps `P`. -/
def RowsKeep (P : State → Prop) : Prop :=
  ∀ (s : State) (op : Op), AtFetch s → s.row < s.nrows → s.fetchInstr.op = some op → P s → P (s.runRow op)

/-- A run goes on from the state a step answers. -/
theorem run_succ_of_step {s t : State} (h : step s = .next t) (n : Nat) :
    core.run (n + 1) s = core.run n t := by
  have hcore : core.step s = .next t := h
  simp only [Host.Core.run, hcore]

/-- From the fetch of a row a call runs the rows left and ends; what its rows keep holds where the last has
ended (rules R188, R195). -/
theorem AtFetch.run_to_done {P : State → Prop} (hP : RowsKeep P) {s : State} (h : AtFetch s) (hs : P s)
    {n : Nat} (hn : s.row + n = s.nrows) :
    ∃ u, core.run (n + 1) s = .next u.complete ∧ AtFetch u ∧ u.row = u.nrows ∧ SameControl s u ∧ P u := by
  induction n generalizing s with
  | zero =>
    have hrow : s.row = s.nrows := hn
    exact ⟨s, run_succ_of_step (h.step_at_end hrow) 0, h, hrow, .refl s, hs⟩
  | succ n ih =>
    have hrow : s.row < s.nrows := by omega
    obtain ⟨op, hop⟩ := decodeRow_op s.first s.fetchTag
    obtain ⟨hnext, hsucc⟩ := h.runRow hrow op
    have hcontrol := (endsRow_runRow s op).control
    have hleft : (s.runRow op).row + n = (s.runRow op).nrows := by
      rw [hsucc, hcontrol.nrows]
      omega
    obtain ⟨u, hrun, hu, hend, hcontrol', hPu⟩ := ih hnext (hP s op h hrow hop hs) hleft
    have hstep := run_succ_of_step (h.step_row hrow.ne hop) (n + 1)
    exact ⟨u, hstep.trans hrun, hu, hend, hcontrol.trans hcontrol', hPu⟩

/-- Under the launch premises a call ends in `DONE` after its `CTRL` write, its rows and its completion; what its
rows keep holds where the last has ended (rules R181, R182, R195). -/
theorem LaunchPremises.run_call {P : State → Prop} (hP : RowsKeep P) {s : State} (h : LaunchPremises s)
    (hinv : Inv s) (hs : P s.launched) :
    ∃ u, core.run (s.nrows + 2) s.call = .next u.complete ∧ AtFetch u ∧ u.row = u.nrows ∧
      SameControl s.launched u ∧ P u := by
  have hfetch := h.atFetch_launched hinv
  by_cases hn : s.nrows = 0
  · refine ⟨s.launched, ?_, hfetch, hn.symm, .refl _, hs⟩
    have hidle : step s.launched.complete = .next s.launched.complete :=
      (step_of_host_nil rfl).trans (pueMove_of_not_busy nofun)
    rw [hn, run_succ_of_step h.step_call, beginCall_eq_launched_complete hn]
    exact run_succ_of_step hidle 0
  · rw [run_succ_of_step h.step_call, beginCall_eq_launched hn]
    exact hfetch.run_to_done hP hs (Nat.zero_add s.nrows)

end Sys2Proof.Machine
end

section
/-! PROOFS. A finished buffer: every tag is 0 after a call, and a call on such a buffer changes nothing (rules
R99, R100, R194). -/

namespace Sys2Proof.Machine

/-- Writing the byte that stands there changes nothing. -/
theorem Memory.write_read_self {m : Memory} (hm : m.wf = true) (addr : Nat) :
    m.write addr (m.read addr) = m := by
  refine Memory.ext (Memory.write_wf _ _ _ hm) hm fun a => ?_
  rw [Memory.read_write _ _ _ _ hm]
  split
  · rw [‹a = addr›]
  · rfl

/-- The tags of the first `n` rows are 0 (rule R99). -/
def State.TagsCleared (s : State) (n : Nat) : Prop := ∀ i < n, s.mem.read (s.tagAt i) = 0

/-- A row's tag stands where it stood, the configuration being kept. -/
theorem SameConfig.tagAt {s t : State} (h : SameConfig s t) (i : Nat) : t.tagAt i = s.tagAt i := by
  simp only [State.tagAt, h.base, h.rowlen]

/-- The tags of the rows above stand below the row. -/
theorem RowReady.tagAt_lt {s : State} (h : RowReady s) {i : Nat} (hi : i < s.row) :
    s.tagAt i < s.tagAt s.row :=
  Nat.add_lt_add_left (Nat.mul_lt_mul_of_pos_right hi h.rowlen_pos) s.base

/-- Every row clears its own tag and leaves the cleared tags above it alone (rules R62, R99, R194). -/
theorem rowsKeep_tagsCleared : RowsKeep fun s => s.TagsCleared s.row := by
  intro s op h hrow _ hcleared i hi
  have hready := h.rowReady hrow
  obtain ⟨-, hsucc⟩ := h.runRow hrow op
  obtain ⟨hcontrol, -, -, -, -, -, hmem, -, -⟩ := s.runRow_spec op
  rw [hcontrol.toConfig.tagAt]
  rcases Nat.lt_succ_iff_lt_or_eq.mp (hsucc ▸ hi) with hlt | rfl
  · exact (hready.runRow_outside op _ (.inl (hready.tagAt_lt hlt))).trans (hcleared i hlt)
  · rw [← hready.tagAddr_eq]
    exact (hmem hready.mem_wf).2

/-- A row whose tag is 0 leaves memory as it is (rules R193, R194). -/
theorem RowReady.runRow_nop_mem {s : State} (h : RowReady s) (htag : s.mem.read (s.tagAt s.row) = 0) :
    (s.runRow .nop).mem = s.mem := by
  rw [runRow_of_nop s rfl, State.retireRow_mem, State.wrap_tagAddr]
  show s.mem.write s.tagAddr 0 = s.mem
  rw [h.tagAddr_eq, ← htag]
  exact Memory.write_read_self h.mem_wf _

/-- The row at the program counter is a `NOP` row where its tag is 0, in either mode (rules R95, R96). -/
theorem RowReady.fetchInstr_of_tag_zero {s : State} (h : RowReady s) (htag : s.mem.read (s.tagAt s.row) = 0) :
    s.fetchInstr.op = some .nop := by
  rw [State.fetchInstr, State.fetchTag_eq, h.tagAddr_eq, htag]
  rfl

/-- Every row of a buffer whose tags are 0 leaves memory as it is (rule R100). -/
theorem rowsKeep_mem_of_tagsCleared (m : Memory) : RowsKeep fun s => s.mem = m ∧ s.TagsCleared s.nrows := by
  rintro s op h hrow hop ⟨hmem, hcleared⟩
  have hready := h.rowReady hrow
  have htag := hcleared s.row hrow
  obtain rfl : Op.nop = op := Option.some.inj ((hready.fetchInstr_of_tag_zero htag).symm.trans hop)
  have hkept := hready.runRow_nop_mem htag
  obtain ⟨hcontrol, -⟩ := s.runRow_spec .nop
  refine ⟨hkept.trans hmem, fun i hi => ?_⟩
  rw [hkept, hcontrol.toConfig.tagAt]
  exact hcleared i (hcontrol.nrows ▸ hi)

/-- Settles O37: the first call clears every tag, and leaves the launch premises; each row of the second call
then leaves memory as it is. -/
theorem finishedBufferIsAFixedPoint : Obligations.FinishedBufferIsAFixedPoint := by
  intro s t hinv hpremises hrun
  obtain ⟨u, hrun', hfetch, hend, hcontrol, hcleared⟩ :=
    hpremises.run_call rowsKeep_tagsCleared hinv (fun _ hi => absurd hi (Nat.not_lt_zero _))
  obtain rfl : u.complete = t := Host.Outcome.next.inj (hrun'.symm.trans hrun)
  obtain ⟨hinv', hpremises'⟩ := hfetch.complete
  rw [hend] at hcleared
  obtain ⟨v, hagain, -, -, -, hmem, -⟩ :=
    hpremises'.run_call (rowsKeep_mem_of_tagsCleared u.mem) hinv' ⟨rfl, hcleared⟩
  have hrows : u.nrows = s.nrows := hcontrol.nrows
  refine ⟨fun i hi => ?_, v.complete, ?_, rfl, hmem⟩
  · exact hcontrol.toConfig.tagAt i ▸ hcleared i (hrows ▸ hi)
  · rw [← hrows]
    exact hagain

end Sys2Proof.Machine
end

section
/-! PROOFS. The kernels lane by lane, said once: in every lane below `BPP` each of them adds the scalar predictor to
the filtered byte (rules R121 to R125, R156 to R160); the Paeth predictor by its distances (rules R125, R127, R129);
and the identities of the first row (rules R130 to R132). -/

namespace Sys2Proof.Machine

/-! The Paeth predictor by its distances -/

/-- The Paeth choice by three integer distances: the tie-break left, above, above-left (rule R125). -/
def paethByDistances (pa pb pc : Int) (a b c : Byte) : Byte :=
  if pa ≤ pb ∧ pa ≤ pc then a else if pb ≤ pc then b else c

/-- The scalar predictor chooses by the distances of `p = a + b - c` (rules R125, R127). -/
theorem paethPredictor_eq_byDistances (a b c : Byte) :
    let p : Int := (a.toNat : Int) + b.toNat - c.toNat
    paethPredictor a b c = paethByDistances |p - a.toNat| |p - b.toNat| |p - c.toNat| a b c := by
  simp only [paethPredictor, chooseLeft, chooseAbove, Bool.and_eq_true, decide_eq_true_eq,
    paethByDistances, Int.abs_eq_natAbs, Int.ofNat_le]

/-- The distances of `p = a + b - c` are those of rule R129. -/
theorem paethPredictor_eq_byEquivalentDistances (a b c : Byte) :
    paethPredictor a b c =
      paethByDistances |(b.toNat : Int) - c.toNat| |(a.toNat : Int) - c.toNat|
        |(a.toNat : Int) + b.toNat - 2 * c.toNat| a b c := by
  have hpa : (a.toNat : Int) + b.toNat - c.toNat - a.toNat = b.toNat - c.toNat := by ring
  have hpb : (a.toNat : Int) + b.toNat - c.toNat - b.toNat = a.toNat - c.toNat := by ring
  have hpc : (a.toNat : Int) + b.toNat - c.toNat - c.toNat = a.toNat + b.toNat - 2 * c.toNat := by ring
  simp only [paethPredictor_eq_byDistances, hpa, hpb, hpc]

/-- The scalar predictor is the one that rule R125 describes. -/
theorem paethChoice_paethPredictor (a b c : Byte) : PaethChoice a b c (paethPredictor a b c) := by
  rw [paethPredictor_eq_byDistances]
  refine ⟨fun ha => if_pos ha, fun ha hb => ?_, fun ha hb => ?_⟩
  · exact (if_neg ha).trans (if_pos hb)
  · exact (if_neg ha).trans (if_neg hb)

/-! 16-bit lanes -/

/-- A widened lane holds the byte's value (rule R154). -/
theorem widen_get (r : Lanes Byte) (k : Fin 8) :
    (widen r).get k = BitVec.ofInt 16 (r.get k).toNat := by
  rw [widen, Lanes.get_map, BitVec.ofInt_natCast, BitVec.ofNat_toNat]

/-- The 16-bit subtract is that of the integers, cut to 16 bits (rule R155). -/
theorem half_ofInt_sub (x y : Int) :
    (BitVec.ofInt 16 x - BitVec.ofInt 16 y : Half) = BitVec.ofInt 16 (x - y) := by
  rw [Int.sub_eq_add_neg, BitVec.ofInt_add, BitVec.ofInt_neg, BitVec.sub_eq_add_neg]

/-- `abs16` of a lane that holds a small integer is its magnitude (rules R127, R155). -/
theorem abs16_get_toInt {w : Lanes Half} {k : Fin 8} {d : Int} (h : w.get k = BitVec.ofInt 16 d)
    (hlo : -1024 < d) (hhi : d < 1024) : ((abs16 w).get k).toInt = |d| := by
  have hd : (BitVec.ofInt 16 d).toInt = d := by
    rw [BitVec.toInt_ofInt]
    exact Int.bmod_eq_of_le (by omega) (by omega)
  have hne : BitVec.ofInt 16 d ≠ BitVec.intMin 16 := by
    intro hmin
    have hleast : (BitVec.intMin 16).toInt = -32768 := by decide
    rw [← hmin, hd] at hleast
    omega
  rw [abs16, Lanes.get_map, h, ← BitVec.abs_eq, BitVec.toInt_abs_eq_natAbs_of_ne_intMin hne, hd,
    Int.natCast_natAbs]

/-- A lane of the vector predictor is the scalar predictor of that lane: 16 bits hold every distance
(rules R127, R160). -/
theorem vPaethPredictor_get (a b c : Lanes Byte) (k : Fin 8) :
    (vPaethPredictor a b c).get k = paethPredictor (a.get k) (b.get k) (c.get k) := by
  have ha := (a.get k).isLt
  have hb := (b.get k).isLt
  have hc := (c.get k).isLt
  have hp : (sub16 (add16 (widen a) (widen b)) (widen c)).get k =
      BitVec.ofInt 16 ((a.get k).toNat + (b.get k).toNat - (c.get k).toNat) := by
    simp only [sub16, add16, Lanes.get_zip, widen_get, ← BitVec.ofInt_add, half_ofInt_sub]
  have hdist (r : Lanes Byte) :
      ((abs16 (sub16 (sub16 (add16 (widen a) (widen b)) (widen c)) (widen r))).get k).toInt =
        |(a.get k).toNat + (b.get k).toNat - (c.get k).toNat - ((r.get k).toNat : Int)| := by
    have hr := (r.get k).isLt
    refine abs16_get_toInt ?_ (by omega) (by omega)
    rw [sub16, Lanes.get_zip, hp, widen_get, half_ofInt_sub]
  simp only [vPaethPredictor, selLanes_get, andMask, le16, Lanes.get_zip, BitVec.sle_eq_decide, hdist,
    Bool.and_eq_true, decide_eq_true_eq, paethPredictor_eq_byDistances, paethByDistances]

/-- A lane of `V.AVG`'s mean is the scalar mean: the 16-bit sum does not wrap (rules R128, R158). -/
theorem narrow_shr16_add16_get (a b : Lanes Byte) (k : Fin 8) :
    (narrow (shr16 (add16 (widen a) (widen b)))).get k = avgFloor (a.get k) (b.get k) := by
  apply BitVec.eq_of_toNat_eq
  simp only [narrow, shr16, add16, widen, Lanes.get_map, Lanes.get_zip, avgFloor, BitVec.toNat_setWidth,
    BitVec.toNat_ushiftRight, BitVec.toNat_add, BitVec.toNat_ofNat, Nat.shiftRight_eq_div_pow]
  omega

/-! Every kernel, lane by lane -/

/-- A lane of a vector kernel is the filtered byte plus the predictor (rules R156 to R160). -/
theorem vectorKernel_get (op : Filter) (f a b c : Lanes Byte) (k : Fin 8) :
    (vectorKernel op f a b c).get k = f.get k + predictor op (a.get k) (b.get k) (c.get k) := by
  cases op with
  | sub | up => simp only [vectorKernel, vSub, vUp, add8, Lanes.get_zip, predictor]
  | avg => simp only [vectorKernel, vAvg, add8, Lanes.get_zip, narrow_shr16_add16_get, predictor]
  | avgtop => simp only [vectorKernel, vAvgTop, add8, shr8, Lanes.get_zip, Lanes.get_map, predictor]
  | paeth => simp only [vectorKernel, vPaeth, add8, Lanes.get_zip, vPaethPredictor_get, predictor]

/-- A lane below `BPP` of the selected kernel's result is the filtered byte plus the predictor (rule R163). -/
theorem runKernel_get (fam : Kernel) (op : Filter) {bpp : Nat} (f a b c : Lanes Byte) {k : Fin 8}
    (hk : k.val < bpp) :
    (runKernel fam op bpp f a b c).get k = f.get k + predictor op (a.get k) (b.get k) (c.get k) := by
  cases fam with
  | scalar => rw [runKernel, scalarKernel_get, if_pos hk]
  | vx1 | vx2 | va => exact vectorKernel_get op f a b c k

/-- Settles O22: the distances are equal integers, and a vector lane is the scalar predictor. -/
theorem paethEquivalentDistances : Obligations.PaethEquivalentDistances := by
  intro a b c
  have hscalar := paethPredictor_eq_byEquivalentDistances a b c
  refine ⟨hscalar, fun k ga gb gc ha hb hc => ?_⟩
  rw [vPaethPredictor_get, ha, hb, hc]
  exact hscalar

/-! Against an all-zero row above -/

/-- With nothing above, the predictor is the left neighbour (rule R130). -/
theorem paethPredictor_zero_zero (a : Byte) : paethPredictor a 0 0 = a := by
  simp [paethPredictor_eq_byEquivalentDistances, paethByDistances]

/-- With nothing above, the mean is half the left neighbour (rule R131). -/
theorem avgFloor_zero (a : Byte) : avgFloor a 0 = a >>> 1 := by
  apply BitVec.eq_of_toNat_eq
  have ha := a.isLt
  have hzero : (0 : Byte).toNat = 0 := rfl
  simp only [avgFloor, BitVec.toNat_ofNat, BitVec.toNat_ushiftRight, Nat.shiftRight_eq_div_pow, hzero]
  omega

/-- Settles O23: the predictors of the two sides are equal in the lane. -/
theorem firstRowIdentities : Obligations.FirstRowIdentities := by
  intro fam fam' bpp f a k hk
  simp only [runKernel_get _ _ _ _ _ _ hk, zeroGroup_get, predictor]
  exact ⟨by rw [paethPredictor_zero_zero], by rw [avgFloor_zero], add_zero _⟩

end Sys2Proof.Machine
end

section
/-! PROOFS. The whole-row form of rule R133, byte by byte. -/

namespace Sys2Proof.Machine

variable {op : Filter} {bpp : Nat} {filt prev : List Byte}

/-- The first `n` bytes are `n` bytes. -/
@[simp] theorem rowPrefix_length (op : Filter) (bpp : Nat) (filt prev : List Byte) (n : Nat) :
    (rowPrefix op bpp filt prev n).length = n := by
  induction n with
  | zero => rfl
  | succ n ih => rw [rowPrefix, List.length_append, ih, List.length_singleton]

/-- A byte of the reconstructed row is computed from the bytes before it (rule R133). -/
theorem rowPrefix_getD_eq_rowByte {j n : Nat} (h : j < n) :
    (rowPrefix op bpp filt prev n).getD j 0 =
      rowByte op bpp filt prev (rowPrefix op bpp filt prev j) j := by
  induction n with
  | zero => exact absurd h (Nat.not_lt_zero j)
  | succ n ih =>
    rw [rowPrefix]
    rcases Nat.lt_succ_iff_lt_or_eq.mp h with hlt | rfl
    · rw [List.getD_append _ _ _ _ (by simpa using hlt)]
      exact ih hlt
    · rw [List.getD_append_right _ _ _ _ (by simp)]
      simp

/-- The reconstructed row is as long as the filtered one. -/
@[simp] theorem rowKernel_length (op : Filter) (bpp : Nat) (filt prev : List Byte) :
    (rowKernel op bpp filt prev).length = filt.length :=
  rowPrefix_length op bpp filt prev filt.length

/-- A byte of the reconstructed row in terms of the whole row: its left neighbour stands before it (rule R133). -/
theorem rowKernel_getD (hbpp : 1 ≤ bpp) {j : Nat} (h : j < filt.length) :
    (rowKernel op bpp filt prev).getD j 0 =
      rowByte op bpp filt prev (rowKernel op bpp filt prev) j := by
  rw [rowKernel, rowPrefix_getD_eq_rowByte h]
  unfold rowByte
  by_cases hj : bpp ≤ j
  · rw [rowPrefix_getD_eq_rowByte (n := j) (by omega), rowPrefix_getD_eq_rowByte (by omega)]
  · simp only [hj, if_false]

/-- A predictor depends on the byte above only where its operation reads the row above, and on the byte above-left
only for Paeth. -/
theorem predictor_congr (op : Filter) (a : Byte) {b b' c c' : Byte} (hb : readsAbove op = true → b = b')
    (hc : op = .paeth → c = c') : predictor op a b c = predictor op a b' c' := by
  cases op with
  | sub | avgtop => rfl
  | up | avg => rw [hb rfl]; rfl
  | paeth => rw [hb rfl, hc rfl]

end Sys2Proof.Machine
end

section
/-! PROOFS. A row run group by group is the byte-indexed whole-row form: what holds of memory and of the pixel-group
registers between two group steps, kept by a group step and read off at the row's end (rules R133, R191, R192). -/

namespace Sys2Proof.Machine

/-! Where the payload stands, and the group loads and stores -/

/-- A payload byte stands where it stood, the configuration being kept. -/
theorem SameConfig.payAt {s t : State} (h : SameConfig s t) (i j : Nat) : t.payAt i j = s.payAt i j := by
  simp only [State.payAt, h.base, h.rowlen]

/-- A row's payload keeps its length with the configuration. -/
theorem SameConfig.payloadLen {s t : State} (h : SameConfig s t) : t.payloadLen = s.payloadLen := by
  simp only [State.payloadLen, h.rowlen]

/-- A group step leaves the payload where it stands. -/
@[simp] theorem advanceGroup_payAt (s : State) (op : Filter) (i j : Nat) :
    (s.advanceGroup op).payAt i j = s.payAt i j :=
  (s.advanceGroup_control op).toConfig.payAt i j

/-- A group step leaves the payload's length. -/
@[simp] theorem advanceGroup_payloadLen (s : State) (op : Filter) :
    (s.advanceGroup op).payloadLen = s.payloadLen :=
  (s.advanceGroup_control op).toConfig.payloadLen

/-- The group store walks over every lane. -/
theorem mem_laneIndices : ∀ k : Fin 8, k ∈ laneIndices := by decide

/-- A stored lane is read back, the lanes' addresses being apart (rule R153). -/
theorem read_storeLanes_lane {addrOf : Nat → Nat} {n : Nat} (r : Lanes Byte) {ks : List (Fin 8)} {m : Memory}
    (hm : m.wf = true) {k : Fin 8} (hapart : ∀ k' : Fin 8, k'.val < n → addrOf k.val = addrOf k'.val → k' = k)
    (hmem : k ∈ ks) (hk : k.val < n) :
    (Memory.storeLanes addrOf n r ks m).read (addrOf k.val) = r.get k := by
  induction ks generalizing m with
  | nil => simp at hmem
  | cons k₀ ks ih =>
    rw [Memory.storeLanes]
    by_cases htail : k ∈ ks
    · refine ih ?_ htail
      split
      · exact Memory.write_wf _ _ _ hm
      · exact hm
    · obtain rfl : k = k₀ := (List.mem_cons.mp hmem).resolve_right htail
      rw [if_pos hk, read_storeLanes_outside, Memory.read_write_same _ _ _ hm]
      exact fun k' hk' hlt heq => htail (hapart k' hlt heq ▸ hk')

section
variable {s : State} {op : Filter} {k : Fin 8}

/-- A lane of the current group as loaded is its payload byte (rules R152, R192). -/
theorem RowReady.loadGroup_grpAddr_get (h : RowReady s) (hg : s.grp < s.groups) (hk : k.val < s.bpp.toNat) :
    (s.loadGroup s.grpAddr).get k = s.mem.read (s.payAt s.row (s.grp * s.bpp.toNat + k.val)) := by
  rw [State.loadGroup, Lanes.get_ofFn, if_pos hk, State.readByte, h.wrap_grpAddr_add hg hk]

/-- A lane of the group above is its payload byte (rules R152, R192). -/
theorem AboveReady.aboveGroup_get (h : AboveReady s) (hop : readsAbove op = true) (hg : s.grp < s.groups)
    (hk : k.val < s.bpp.toNat) :
    (s.aboveGroup op).get k = s.mem.read (s.payAt (s.row - 1) (s.grp * s.bpp.toNat + k.val)) := by
  rw [State.aboveGroup, if_pos hop, State.loadGroup, Lanes.get_ofFn, if_pos hk, State.readByte,
    h.wrap_aboveAddr_add hg hk]

/-- A group step stores the lanes of the reconstructed group at their payload bytes (rules R153, R192). -/
theorem RowReady.read_advanceGroup_lane (h : RowReady s) (hg : s.grp < s.groups) (hk : k.val < s.bpp.toNat) :
    (s.advanceGroup op).mem.read (s.payAt s.row (s.grp * s.bpp.toNat + k.val)) =
      (s.reconstructed op).get k := by
  rw [← h.wrap_grpAddr_add hg hk]
  refine read_storeLanes_lane (addrOf := fun k => s.wrap (s.grpAddr + k)) (s.reconstructed op) h.mem_wf
    (fun k' hk' heq => ?_) (mem_laneIndices k) hk
  simp only [h.wrap_grpAddr_add hg hk, h.wrap_grpAddr_add hg hk', State.payAt] at heq
  exact Fin.ext (by omega)

/-- A group step leaves the payload bytes of the other groups alone (rule R153). -/
theorem RowReady.read_advanceGroup_other (h : RowReady s) (hg : s.grp < s.groups) {j : Nat}
    (hj : j < s.grp * s.bpp.toNat ∨ (s.grp + 1) * s.bpp.toNat ≤ j) :
    (s.advanceGroup op).mem.read (s.payAt s.row j) = s.mem.read (s.payAt s.row j) := by
  refine read_storeLanes_outside _ _ _ _ _ fun k _ hk => ?_
  rw [Nat.succ_mul] at hj
  rw [h.wrap_grpAddr_add hg hk]
  simp only [State.payAt]
  omega

end

/-! Between two group steps -/

/-- The row's groups before `GRP` are rebuilt from the filtered payload `filt` and the payload above `prev`, the
others stand as filtered, and `A` and `C` hold the group to the left and above-left (rules R133, R192). -/
structure GroupsDone (op : Filter) (filt prev : List Byte) (s : State) : Prop where
  done : ∀ j < s.grp * s.bpp.toNat,
    s.mem.read (s.payAt s.row j) = (rowKernel op s.bpp.toNat filt prev).getD j 0
  left_over : ∀ j < s.payloadLen, s.grp * s.bpp.toNat ≤ j → s.mem.read (s.payAt s.row j) = filt.getD j 0
  above : readsAbove op = true → ∀ j < s.payloadLen, s.mem.read (s.payAt (s.row - 1) j) = prev.getD j 0
  left : ∀ k : Fin 8, k.val < s.bpp.toNat →
    let j := s.grp * s.bpp.toNat + k.val
    s.a.get k =
      if s.bpp.toNat ≤ j then (rowKernel op s.bpp.toNat filt prev).getD (j - s.bpp.toNat) 0 else 0
  above_left : op = .paeth → ∀ k : Fin 8, k.val < s.bpp.toNat →
    let j := s.grp * s.bpp.toNat + k.val
    s.c.get k = if s.bpp.toNat ≤ j then prev.getD (j - s.bpp.toNat) 0 else 0

section
variable {s : State} {op : Filter} {filt prev : List Byte}

/-- The `B` of a group step holds the bytes above, or 0 (rule R192). -/
theorem GroupsDone.aboveGroup_get (hd : GroupsDone op filt prev s)
    (habove : readsAbove op = true → AboveReady s) (hg : s.grp < s.groups) {k : Fin 8} (hk : k.val < s.bpp.toNat) :
    (s.aboveGroup op).get k =
      if readsAbove op then prev.getD (s.grp * s.bpp.toNat + k.val) 0 else 0 := by
  by_cases hop : readsAbove op = true
  · rw [if_pos hop, (habove hop).aboveGroup_get hop hg hk]
    exact hd.above hop _ (lane_lt_payloadLen hg hk)
  · rw [if_neg hop, State.aboveGroup, if_neg hop, zeroGroup_get]

/-- The group that a group step reconstructs is the whole-row form's (rule R133). -/
theorem GroupsDone.reconstructed_get (hd : GroupsDone op filt prev s) (h : RowReady s)
    (habove : readsAbove op = true → AboveReady s) (hfilt : filt.length = s.payloadLen)
    (hg : s.grp < s.groups) {k : Fin 8} (hk : k.val < s.bpp.toNat) :
    (s.reconstructed op).get k =
      (rowKernel op s.bpp.toNat filt prev).getD (s.grp * s.bpp.toNat + k.val) 0 := by
  have hlane := lane_lt_payloadLen hg hk
  have hwhole : (rowKernel op s.bpp.toNat filt prev).getD (s.grp * s.bpp.toNat + k.val) 0 = _ :=
    rowKernel_getD h.legal.bpp_pos (hfilt ▸ hlane)
  rw [hwhole, rowByte, State.reconstructed, runKernel_get _ _ _ _ _ _ hk, h.loadGroup_grpAddr_get hg hk,
    hd.left_over _ hlane (Nat.le_add_right _ _), hd.aboveGroup_get habove hg hk, hd.left k hk]
  congr 1
  refine predictor_congr op _ (fun _ => rfl) fun hop => ?_
  rw [hd.above_left hop k hk]
  simp only [hop, true_and]

/-- A group step keeps the row's groups in order. -/
theorem GroupsDone.advanceGroup (hd : GroupsDone op filt prev s) (h : RowReady s)
    (habove : readsAbove op = true → AboveReady s) (hfilt : filt.length = s.payloadLen)
    (hg : s.grp < s.groups) : GroupsDone op filt prev (s.advanceGroup op) := by
  have hgrp := h.advanceGroup_grp hg op
  have hnext (k : Nat) : (s.grp + 1) * s.bpp.toNat + k = s.grp * s.bpp.toNat + k + s.bpp.toNat := by ring
  have hlane (j : Nat) (hlo : s.grp * s.bpp.toNat ≤ j) (hhi : j < (s.grp + 1) * s.bpp.toNat) :
      ∃ k : Fin 8, k.val < s.bpp.toNat ∧ j = s.grp * s.bpp.toNat + k.val := by
    have hle := h.legal.bpp_le
    rw [Nat.succ_mul] at hhi
    exact ⟨⟨j - s.grp * s.bpp.toNat, by omega⟩, by simp only; omega, by simp only; omega⟩
  constructor <;> simp only [hgrp, advanceGroup_payAt, advanceGroup_payloadLen, State.advanceGroup_bpp,
    State.advanceGroup_row, State.advanceGroup_a, State.advanceGroup_c]
  case done =>
    intro j hj
    by_cases hlo : j < s.grp * s.bpp.toNat
    · rw [h.read_advanceGroup_other hg (.inl hlo)]
      exact hd.done j hlo
    · obtain ⟨k, hk, rfl⟩ := hlane j (not_lt.mp hlo) hj
      rw [h.read_advanceGroup_lane hg hk]
      exact hd.reconstructed_get h habove hfilt hg hk
  case left_over =>
    intro j hj hlo
    rw [h.read_advanceGroup_other hg (.inr hlo)]
    exact hd.left_over j hj ((Nat.mul_le_mul_right _ (Nat.le_succ _)).trans hlo)
  case above =>
    intro hop j hj
    have hbelow := payAt_pred_lt_tagAt (habove hop).not_first hj
    rw [h.advanceGroup_outside hg op _ (.inl hbelow)]
    exact hd.above hop j hj
  case left =>
    intro k hk
    simp only [hnext, Nat.le_add_left, if_true, Nat.add_sub_cancel]
    exact hd.reconstructed_get h habove hfilt hg hk
  case above_left =>
    rintro rfl k hk
    simp only [hnext, Nat.le_add_left, if_true, Nat.add_sub_cancel]
    exact hd.aboveGroup_get habove hg hk

/-- Group steps up to the row's last keep the row's groups in order, and count them (rule R191). -/
theorem GroupsDone.runGroups (hd : GroupsDone op filt prev s) (h : RowReady s)
    (habove : readsAbove op = true → AboveReady s) (hfilt : filt.length = s.payloadLen) {n : Nat}
    (hn : s.grp + n ≤ s.groups) :
    GroupsDone op filt prev (State.runGroups op n s) ∧ (State.runGroups op n s).grp = s.grp + n := by
  induction n generalizing s with
  | zero => exact ⟨hd, rfl⟩
  | succ n ih =>
    have hg : s.grp < s.groups := by omega
    have hgrp := h.advanceGroup_grp hg op
    have hleft : (s.advanceGroup op).grp + n ≤ s.groups := by omega
    have hfilt' : filt.length = (s.advanceGroup op).payloadLen := by rw [advanceGroup_payloadLen, hfilt]
    obtain ⟨hdone, hcount⟩ := ih (hd.advanceGroup h habove hfilt hg) (h.advanceGroup op)
      (fun hop => (habove hop).advanceGroup op) hfilt' hleft
    exact ⟨hdone, hcount.trans (by omega)⟩

end

/-! The payload of a row, before and after -/

/-- The payload of a row has `n` bytes (rule R14). -/
@[simp] theorem payload_length (s : State) (i : Nat) : (s.payload i).length = s.payloadLen := by
  simp [State.payload, Memory.readBytes]

/-- The bytes of a row's payload are those at its payload addresses (rule R14). -/
theorem payload_getD {s : State} {j : Nat} (hj : j < s.payloadLen) (i : Nat) :
    (s.payload i).getD j 0 = s.mem.read (s.payAt i j) := by
  simp [State.payload, Memory.readBytes, hj, State.payAt]

/-- The previous row's payload that a row's operation reads, empty if it reads none (rule R133). -/
def State.rowAbove (s : State) (op : Filter) : List Byte :=
  if readsAbove op then s.payload (s.row - 1) else []

/-- At the begin of a row no group is done, and `A` and `C` are 0 (rule R190). -/
theorem groupsDone_beginRow (s : State) (o : Op) (op : Filter) :
    GroupsDone op (s.payload s.row) (s.rowAbove op) (s.beginRow o) := by
  constructor
  case done => simp
  case left_over => exact fun j hj _ => (payload_getD hj s.row).symm
  case above =>
    intro hop j hj
    rw [State.rowAbove, if_pos hop]
    exact (payload_getD hj (s.row - 1)).symm
  case left =>
    intro k (hk : k.val < s.bpp.toNat)
    simp [hk]
  case above_left =>
    intro _ k (hk : k.val < s.bpp.toNat)
    simp [hk]

/-- The groups of a row make up its payload (rule R14). -/
theorem RowReady.groups_mul_bpp {s : State} (h : RowReady s) : s.groups * s.bpp.toNat = s.payloadLen := by
  have hwhole := h.legal.groups.resolve_left (Nat.ne_zero_of_lt h.row_lt)
  exact Nat.div_mul_cancel (Nat.dvd_of_mod_eq_zero hwhole)

/-- A payload byte is not the row's tag (rule R14). -/
theorem RowReady.payAt_ne_tagAddr {s : State} (h : RowReady s) (j : Nat) : s.payAt s.row j ≠ s.tagAddr := by
  rw [h.tagAddr_eq]
  simp only [State.payAt, State.tagAt]
  omega

/-- The retire step leaves the row's payload alone (rule R194). -/
theorem RowReady.read_retireRow_payAt {s : State} (h : RowReady s) (j : Nat) :
    s.retireRow.mem.read (s.payAt s.row j) = s.mem.read (s.payAt s.row j) := by
  rw [State.retireRow_mem, State.wrap_tagAddr]
  exact Memory.read_write_ne _ _ (h.payAt_ne_tagAddr j)

/-! A row that reconstructs, whole and byte by byte -/

/-- The rebuilt byte one group to the left, 0 in the first group. -/
def State.leftByte (s t : State) (j : Nat) : Byte :=
  if s.bpp.toNat ≤ j then t.mem.read (s.payAt s.row (j - s.bpp.toNat)) else 0

/-- The byte above. -/
def State.aboveByte (s : State) (j : Nat) : Byte := s.mem.read (s.payAt (s.row - 1) j)

/-- The byte above, one group to the left, 0 in the first group. -/
def State.aboveLeftByte (s : State) (j : Nat) : Byte :=
  if s.bpp.toNat ≤ j then s.mem.read (s.payAt (s.row - 1) (j - s.bpp.toNat)) else 0

section
variable {s : State} (h : RowReady s) {o : Op} {op : Filter} (ho : filterOf o = some op)
  (habove : readsAbove op = true → AboveReady s)
include h ho habove

/-- A row that reconstructs leaves, byte by byte, the whole-row form's payload (rule R133). -/
theorem RowReady.read_runRow_payAt {j : Nat} (hj : j < s.payloadLen) :
    (s.runRow o).mem.read (s.payAt s.row j) =
      (rowKernel op s.bpp.toNat (s.payload s.row) (s.rowAbove op)).getD j 0 := by
  have hbegin := h.beginRow o
  have habove' : readsAbove op = true → AboveReady (s.beginRow o) := fun hop =>
    ⟨hbegin, (habove hop).not_first, (habove hop).prev_eq⟩
  obtain ⟨hdone, hcount⟩ := (groupsDone_beginRow s o op).runGroups hbegin habove'
    (payload_length s s.row) (Nat.zero_add s.groups).le
  have hready := hbegin.runGroups op s.groups
  have hconfig := (State.runGroups_control op s.groups (s.beginRow o)).toConfig
  obtain ⟨hrow, -⟩ := State.runGroups_seq op s.groups (s.beginRow o)
  have hdoneAll : j < (State.runGroups op s.groups (s.beginRow o)).grp *
      (State.runGroups op s.groups (s.beginRow o)).bpp.toNat := by
    rw [hcount, hconfig.bpp, State.beginRow_grp, Nat.zero_add]
    exact h.groups_mul_bpp.symm ▸ hj
  rw [h.runRow_of_filter ho]
  have hbyte := (hready.read_retireRow_payAt j).trans (hdone.done j hdoneAll)
  rw [hconfig.payAt, hrow, hconfig.bpp] at hbyte
  exact hbyte

/-- A row that reconstructs leaves the whole-row form's payload (rule R133). -/
theorem RowReady.runRow_payload :
    (s.runRow o).payload s.row = rowKernel op s.bpp.toNat (s.payload s.row) (s.rowAbove op) := by
  obtain ⟨hcontrol, -⟩ := s.runRow_spec o
  have hlen := hcontrol.toConfig.payloadLen
  refine List.ext_getElem (by simp [hlen]) fun j hj hj' => ?_
  rw [payload_length, hlen] at hj
  rw [← List.getD_eq_getElem _ 0, ← List.getD_eq_getElem _ 0, payload_getD (hlen ▸ hj),
    hcontrol.toConfig.payAt]
  exact h.read_runRow_payAt ho habove hj

/-- A row that reconstructs leaves in each payload byte the filtered byte plus the predictor of its rebuilt left
neighbour, the byte above and the byte above-left (rules R121 to R125). -/
theorem RowReady.read_runRow_eq_add_predictor {j : Nat} (hj : j < s.payloadLen) :
    (s.runRow o).mem.read (s.payAt s.row j) =
      s.mem.read (s.payAt s.row j) +
        predictor op (s.leftByte (s.runRow o) j) (s.aboveByte j) (s.aboveLeftByte j) := by
  have hlen : j < (s.payload s.row).length := by rwa [payload_length]
  have hpred : j - s.bpp.toNat < s.payloadLen := by omega
  rw [State.leftByte, h.read_runRow_payAt ho habove hj, h.read_runRow_payAt ho habove hpred,
    rowKernel_getD h.legal.bpp_pos hlen, rowByte, payload_getD hj]
  congr 1
  refine predictor_congr op _ (fun hop => ?_) fun hop => ?_
  · rw [if_pos hop, State.rowAbove, if_pos hop, payload_getD hj, State.aboveByte]
  · subst hop
    simp only [true_and, State.rowAbove, readsAbove, if_true, payload_getD hpred, State.aboveLeftByte]

end

/-- What the end of a row leaves, in the words of the statements (rules R62, R194). -/
theorem RowReady.rowFrame_runRow {s : State} (h : RowReady s) (o : Op) : RowFrame s (s.runRow o) := by
  obtain ⟨hcontrol, hrow, hprev, hvalid, hphase, -, hmem, -, -⟩ := s.runRow_spec o
  obtain ⟨-, htag⟩ := hmem h.mem_wf
  exact ⟨⟨htag, hprev, hvalid, hrow, hphase⟩, hcontrol, h.runRow_outside o⟩

end Sys2Proof.Machine
end

section
/-! PROOFS. The reconstructing rows: the whole-row form, and each operation byte by byte (rules R121 to R125, R128,
R133). -/

namespace Sys2Proof.Machine

/-- Settles O15: a row instruction with a kernel runs its operation's row, whose payload is the whole-row form's. -/
theorem rowRunsAreTheWholeRowForm : Obligations.RowRunsAreTheWholeRowForm := by
  intro i op s hop h habove
  obtain ⟨o, hi, ho⟩ := Option.bind_eq_some_iff.mp hop
  exact ⟨s.runRow o, exec_row hi s, h.runRow_payload ho habove⟩

/-- In a group step's active lanes `X` is `F` plus the predictor of `A`, `B` and `C` (rule R192). -/
theorem groupStep_x_get (s : State) (op : Filter) {k : Fin 8} (hk : k.val < s.bpp.toNat) :
    (s.groupStep op).x.get k =
      (s.groupStep op).f.get k + predictor op (s.a.get k) ((s.groupStep op).b.get k) (s.c.get k) :=
  runKernel_get _ _ _ _ _ _ hk

/-- A row instruction with a kernel completes with the row's frame, and with the filtered byte plus the predictor in
every payload byte. -/
theorem RowReady.exec_filterRow {s : State} (h : RowReady s) {i : Instr} {o : Op} {op : Filter}
    (hi : i.op = some o) (ho : filterOf o = some op) (habove : readsAbove op = true → AboveReady s) :
    ∃ t, exec i s = .next t ∧ RowFrame s t ∧
      ∀ j < s.payloadLen, t.mem.read (s.payAt s.row j) = s.mem.read (s.payAt s.row j) +
        predictor op (s.leftByte t j) (s.aboveByte j) (s.aboveLeftByte j) :=
  ⟨s.runRow o, exec_row hi s, h.rowFrame_runRow o, fun _ => h.read_runRow_eq_add_predictor ho habove⟩

/-- A row instruction that reads the row above needs that row in place only. -/
theorem AboveReady.exec_filterRow {s : State} (h : AboveReady s) {i : Instr} {o : Op} {op : Filter}
    (hi : i.op = some o) (ho : filterOf o = some op) :
    ∃ t, exec i s = .next t ∧ RowFrame s t ∧
      ∀ j < s.payloadLen, t.mem.read (s.payAt s.row j) = s.mem.read (s.payAt s.row j) +
        predictor op (s.leftByte t j) (s.aboveByte j) (s.aboveLeftByte j) :=
  h.ready.exec_filterRow hi ho fun _ => h

/-- The filtered byte plus the mean, modulo 256 (rules R123, R128). -/
theorem toNat_add_avgFloor (f a b : Byte) :
    (f + avgFloor a b).toNat = (f.toNat + (a.toNat + b.toNat) / 2) % 256 := by
  simp only [avgFloor, BitVec.toNat_add, BitVec.toNat_ofNat]
  omega

/-- The filtered byte plus half the left neighbour, modulo 256 (rule R124). -/
theorem toNat_add_half (f a : Byte) : (f + a >>> 1).toNat = (f.toNat + a.toNat / 2) % 256 := by
  simp only [BitVec.toNat_add, BitVec.toNat_ushiftRight, Nat.shiftRight_eq_div_pow, pow_one]

/-- Settles O10: `SUB` and its alias have one operation, whose predictor is the left neighbour. -/
theorem subRowAddsTheLeftNeighbour : Obligations.SubRowAddsTheLeftNeighbour := by
  refine ⟨fun _ => rfl, rfl, fun s k hk => groupStep_x_get s .sub hk, fun i s hi h => ?_⟩
  have hop : i.op = some .sub := by rcases hi with rfl | rfl <;> rfl
  exact h.exec_filterRow hop rfl nofun

/-- Settles O11: `UP`'s predictor is the byte above. -/
theorem upRowAddsTheByteAbove : Obligations.UpRowAddsTheByteAbove :=
  ⟨rfl, fun s _ hk => groupStep_x_get s .up hk, fun _ h => h.exec_filterRow (op := .up) rfl rfl⟩

/-- Settles O12: `AVG`'s predictor is the mean, from a sum that does not wrap. -/
theorem avgRowAddsTheFlooredMean : Obligations.AvgRowAddsTheFlooredMean := by
  refine ⟨rfl, fun s k hk => ?_, fun s h => ?_⟩
  · exact (congrArg BitVec.toNat (groupStep_x_get s .avg hk)).trans (toNat_add_avgFloor _ _ _)
  · obtain ⟨t, hexec, hframe, hbytes⟩ := h.exec_filterRow (i := .avg) rfl rfl
    exact ⟨t, hexec, hframe, fun j hj =>
      (congrArg BitVec.toNat (hbytes j hj)).trans (toNat_add_avgFloor _ _ _)⟩

/-- Settles O13: `AVGTOP`'s predictor is half the left neighbour. -/
theorem avgTopRowAddsHalfTheLeftNeighbour : Obligations.AvgTopRowAddsHalfTheLeftNeighbour := by
  refine ⟨rfl, fun s k hk => ?_, fun s h => ?_⟩
  · exact (congrArg BitVec.toNat (groupStep_x_get s .avgtop hk)).trans (toNat_add_half _ _)
  · obtain ⟨t, hexec, hframe, hbytes⟩ := h.exec_filterRow (i := .avgTop) rfl rfl nofun
    exact ⟨t, hexec, hframe, fun j hj => (congrArg BitVec.toNat (hbytes j hj)).trans (toNat_add_half _ _)⟩

/-- Settles O14: `PAETH`'s predictor is the choice of rule R125. -/
theorem paethRowAddsThePredictor : Obligations.PaethRowAddsThePredictor := by
  refine ⟨rfl, fun s k hk => ?_, fun s h => ?_⟩
  · exact ⟨_, paethChoice_paethPredictor _ _ _, groupStep_x_get s .paeth hk⟩
  · obtain ⟨t, hexec, hframe, hbytes⟩ := h.exec_filterRow (i := .paeth) rfl rfl
    exact ⟨t, hexec, hframe, fun j hj => ⟨_, paethChoice_paethPredictor _ _ _, hbytes j hj⟩⟩

end Sys2Proof.Machine
end

section
/-! PROOFS. The group load and store (rules R152, R153), the lanes at or above `BPP` that stay 0 through a group step,
and that the selected kernel therefore shows nowhere but in `SEL` (rules R163, R164). -/

namespace Sys2Proof.Machine

/-- Settles O21: in an active lane both sides add the scalar predictor to the filtered byte. -/
theorem vectorKernelsEqualScalar : Obligations.VectorKernelsEqualScalar := by
  intro fam op bpp f a b c k _ _ hk
  rw [runKernel_get fam _ _ _ _ _ hk, runKernel_get .scalar _ _ _ _ _ hk]

/-! The group load and store -/

/-- A lane of a group load (rule R152). -/
theorem loadGroup_get (s : State) (addr : Nat) (k : Fin 8) :
    (s.loadGroup addr).get k = if k.val < s.bpp.toNat then s.readByte (addr + k.val) else 0 :=
  Lanes.get_ofFn _ k

/-- An active lane's address below the end of the address space does not wrap (rule R202). -/
theorem wrap_lane {s : State} {addr k : Nat} (hend : addr + s.bpp.toNat ≤ 2 ^ s.params.aw)
    (hk : k < s.bpp.toNat) : s.wrap (addr + k) = addr + k :=
  State.wrap_of_lt (by omega)

/-- Settles O24: the active lanes' addresses do not wrap. -/
theorem groupLoadIsZeroPadded : Obligations.GroupLoadIsZeroPadded := by
  intro s addr k hend
  rw [loadGroup_get]
  split
  · rw [State.readByte, wrap_lane hend ‹_›]
  · rfl

/-- An active lane of a group store is read back from its byte (rule R153). -/
theorem read_storeGroup_lane {s : State} {addr : Nat} (r : Lanes Byte) (hwf : s.mem.wf = true)
    (hend : addr + s.bpp.toNat ≤ 2 ^ s.params.aw) {k : Fin 8} (hk : k.val < s.bpp.toNat) :
    (s.storeGroup addr r).mem.read (addr + k.val) = r.get k := by
  have hlane : (s.storeGroup addr r).mem.read (s.wrap (addr + k.val)) = r.get k := by
    refine read_storeLanes_lane (addrOf := fun k => s.wrap (addr + k)) r hwf
      (fun k' hk' heq => ?_) (mem_laneIndices k) hk
    simp only [wrap_lane hend hk, wrap_lane hend hk'] at heq
    exact Fin.ext (by omega)
  rwa [wrap_lane hend hk] at hlane

/-- A group store leaves every byte outside its active lanes alone (rule R153). -/
theorem read_storeGroup_outside {s : State} {addr x : Nat} (r : Lanes Byte)
    (hend : addr + s.bpp.toNat ≤ 2 ^ s.params.aw) (hx : x < addr ∨ addr + s.bpp.toNat ≤ x) :
    (s.storeGroup addr r).mem.read x = s.mem.read x := by
  refine read_storeLanes_outside _ _ _ _ _ fun k _ hk => ?_
  rw [wrap_lane hend hk]
  omega

/-! The inactive lanes -/

/-- A lane at or above `BPP` of a group load is 0 (rule R152). -/
theorem loadGroup_get_inactive {s : State} (addr : Nat) {k : Fin 8} (hk : s.bpp.toNat ≤ k.val) :
    (s.loadGroup addr).get k = 0 := by
  rw [loadGroup_get, if_neg (Nat.not_lt.mpr hk)]

/-- A lane at or above `BPP` of the group above is 0, whether it is loaded or cleared (rule R192). -/
theorem aboveGroup_get_inactive {s : State} (op : Filter) {k : Fin 8} (hk : s.bpp.toNat ≤ k.val) :
    (s.aboveGroup op).get k = 0 := by
  unfold State.aboveGroup
  split
  · exact loadGroup_get_inactive _ hk
  · exact zeroGroup_get k

/-- Every operation predicts 0 from neighbours that are 0 (rule R153). -/
theorem predictor_zero (op : Filter) : predictor op 0 0 0 = 0 := by
  cases op <;> rfl

/-- Every kernel keeps 0 a lane at or above `BPP` that is 0 in its operands: the scalar kernel writes 0 there, and a
vector kernel adds the predictor of zeros to 0 (rules R21, R153). -/
theorem runKernel_get_inactive (fam : Kernel) (op : Filter) {bpp : Nat} {f a b c : Lanes Byte} {k : Fin 8}
    (hk : bpp ≤ k.val) (hf : f.get k = 0) (ha : a.get k = 0) (hb : b.get k = 0) (hc : c.get k = 0) :
    (runKernel fam op bpp f a b c).get k = 0 := by
  have hvector : (vectorKernel op f a b c).get k = 0 := by
    rw [vectorKernel_get, hf, ha, hb, hc, predictor_zero, add_zero]
  cases fam with
  | scalar => rw [runKernel, scalarKernel_get, if_neg (Nat.not_lt.mpr hk)]
  | vx1 | vx2 | va => exact hvector

/-- A lane at or above `BPP` that is 0 in `A` and `C` is 0 in the reconstructed group (rule R192). -/
theorem reconstructed_get_inactive {s : State} (op : Filter) {k : Fin 8} (hk : s.bpp.toNat ≤ k.val)
    (ha : s.a.get k = 0) (hc : s.c.get k = 0) : (s.reconstructed op).get k = 0 :=
  runKernel_get_inactive _ op hk (loadGroup_get_inactive _ hk) ha (aboveGroup_get_inactive op hk) hc

/-- Settles O25: the stored lanes are read back, the other bytes are no stored lane's, and an inactive lane is 0
in each group that the step makes. -/
theorem groupStoreWritesOnlyActiveLanes : Obligations.GroupStoreWritesOnlyActiveLanes := by
  refine ⟨fun s addr r hwf _ hend => ⟨?_, ?_, rfl⟩, fun s op k hk ha hc => ?_⟩
  · exact fun k hk => read_storeGroup_lane r hwf hend hk
  · exact fun x hx => read_storeGroup_outside r hend hx
  · have hx := reconstructed_get_inactive op hk ha hc
    have hb := aboveGroup_get_inactive op hk
    exact ⟨hx, hb, hb, loadGroup_get_inactive _ hk, hx⟩

/-! A row under another selection -/

/-- The lanes at or above `BPP` are 0 in the history registers `A` and `C`: the only lanes in which a scalar and a
vector kernel can differ then agree. -/
def State.InactiveZero (s : State) : Prop :=
  ∀ k : Fin 8, s.bpp.toNat ≤ k.val → s.a.get k = 0 ∧ s.c.get k = 0

/-- The row-start action clears `A` and `C` (rule R190). -/
theorem inactiveZero_beginRow (s : State) (op : Op) : (s.beginRow op).InactiveZero :=
  fun k _ => ⟨zeroGroup_get k, zeroGroup_get k⟩

section
variable {s : State} (h : s.InactiveZero) (sel : Sel)
include h

/-- A group step keeps the inactive lanes of `A` and `C` at 0 (rules R153, R192). -/
theorem State.InactiveZero.advanceGroup (op : Filter) : (s.advanceGroup op).InactiveZero := fun k hk =>
  ⟨reconstructed_get_inactive op hk (h k hk).1 (h k hk).2, aboveGroup_get_inactive op hk⟩

/-- The reconstructed group is the same under every selection, in the active lanes by the kernels' equality and in
the others by their being 0 (rule R163). -/
theorem State.InactiveZero.reconstructed_withSel (op : Filter) :
    State.reconstructed { s with sel := sel } op = s.reconstructed op := by
  refine Lanes.ext_get fun k => ?_
  by_cases hk : k.val < s.bpp.toNat
  · exact (runKernel_get _ op _ _ _ _ hk).trans (runKernel_get _ op _ _ _ _ hk).symm
  · obtain ⟨ha, hc⟩ := h k (Nat.not_lt.mp hk)
    rw [reconstructed_get_inactive op (Nat.not_lt.mp hk) ha hc]
    exact reconstructed_get_inactive (s := { s with sel := sel }) op (Nat.not_lt.mp hk) ha hc

/-- A group step under another selection ends in the same state but for `SEL` (rule R164). -/
theorem State.InactiveZero.advanceGroup_withSel (op : Filter) :
    State.advanceGroup { s with sel := sel } op = { s.advanceGroup op with sel := sel } := by
  simp only [State.advanceGroup, State.groupStep, h.reconstructed_withSel sel op]
  rfl

/-- Group steps under another selection end in the same state but for `SEL` (rule R164). -/
theorem State.InactiveZero.runGroups_withSel (op : Filter) (n : Nat) :
    State.runGroups op n { s with sel := sel } = { State.runGroups op n s with sel := sel } := by
  induction n generalizing s with
  | zero => rfl
  | succ n ih =>
    simp only [State.runGroups, h.advanceGroup_withSel sel op]
    exact ih (h.advanceGroup op)

end

/-- A row that reconstructs is its begin, the groups left and its retirement, in every state (rules R188, R191). -/
theorem runRow_of_filterOf (s : State) {o : Op} {op : Filter} (ho : filterOf o = some op) :
    s.runRow o = (State.runGroups op (s.beginRow o).groupsLeft (s.beginRow o)).retireRow := by
  simp [State.runRow, State.finishRow, ho]

/-- A row under another selection ends in the same state but for `SEL` (rule R164). -/
theorem runRow_withSel (s : State) (sel : Sel) (o : Op) :
    State.runRow { s with sel := sel } o = { s.runRow o with sel := sel } := by
  cases ho : filterOf o with
  | none =>
    rw [runRow_of_nop _ ho, runRow_of_nop _ ho]
    rfl
  | some op =>
    have hgroups := (inactiveZero_beginRow s o).runGroups_withSel sel op (s.beginRow o).groupsLeft
    rw [runRow_of_filterOf _ ho, runRow_of_filterOf _ ho]
    exact congrArg State.retireRow hgroups

/-- Settles O26: a row instruction is its operation's row, which runs alike under every selection. -/
theorem selectionChangesNothingElse : Obligations.SelectionChangesNothingElse := by
  intro i s sel hi
  obtain ⟨o, ho⟩ := op_of_ne_start hi
  exact ⟨s.runRow o, exec_row ho s, (exec_row ho _).trans (congrArg _ (runRow_withSel s sel o))⟩

end Sys2Proof.Machine
end

section
/-! PROOFS. PUE's move at a fetch, and the begin of a call: the row at the program counter (rules R28, R189), the
end of the buffer (rule R195), and what `START` does under and outside the launch premises (rules R181, R182, R186). -/

namespace Sys2Proof.Machine

/-! At a fetch -/

/-- PUE's move at the fetch of a row is the meaning of the instruction there (rule R189, log entry 6). -/
theorem pueMove_at_row {s : State} (hbusy : s.status = .busy) (hphase : s.phase = .fetch)
    (hrow : s.row ≠ s.nrows) : s.pueMove = exec s.fetchInstr s := by
  simp only [State.pueMove, hbusy, if_true, hphase, hrow, if_false]

/-- PUE's move at the fetch at the end of the buffer completes the call (rule R195). -/
theorem pueMove_at_end {s : State} (hbusy : s.status = .busy) (hphase : s.phase = .fetch)
    (hrow : s.row = s.nrows) : s.pueMove = .next s.complete := by
  simp only [State.pueMove, hbusy, if_true, hphase, hrow]

/-- With a pause at the head of the host's list, the step is PUE's move (log entry 8). -/
theorem step_of_pause {s : State} {rest : List HostCmd} (h : s.host = .pause :: rest) :
    step s = State.pueMove { s with host := rest } :=
  step_of_host_cons h

/-- The instruction at the program counter, by the byte in memory (rules R28, R189). -/
theorem fetchInstr_eq (s : State) :
    s.fetchInstr = decodeRow (decide (s.row = 0)) (s.mem.read s.tagAddr) :=
  congrArg (decodeRow _) s.fetchTag_eq

/-- Settles O5: with no host command or a pause the step is PUE's move, at the state with the pause used up. -/
theorem stepRunsTheRowAtTheProgramCounter : Obligations.StepRunsTheRowAtTheProgramCounter := by
  intro s rest hhost hbusy hphase hrow
  have hstep : step s = State.pueMove { s with host := rest } := by
    rcases hhost with ⟨hnil, rfl⟩ | hpause
    · rw [step_of_host_nil hnil, ← hnil]
    · exact step_of_pause hpause
  rw [hstep, pueMove_at_row (s := { s with host := rest }) hbusy hphase hrow, fetchInstr_eq]
  rfl

/-- Settles O8: the step completes the call, and outside a call PUE makes no move. -/
theorem fetchAtTheEndIsDone : Obligations.FetchAtTheEndIsDone := by
  intro s h hhost hbusy hphase hrow
  have hstep := AtFetch.step_at_end ⟨h, hhost, hbusy, hphase⟩ hrow
  have hcause : s.cause = 0 := h.cause_zero (by simp [hbusy])
  have hidle : step s.complete = .next s.complete :=
    (step_of_host_nil (s := s.complete) hhost).trans (pueMove_of_not_busy nofun)
  exact ⟨s.complete, hstep, rfl, hcause, rfl, rfl, ⟨rfl, rfl, rfl, rfl, rfl, rfl⟩, hhost, rfl, hidle⟩

/-! `START` -/

/-- Settles O27: the begin of a call with rows, field by field. -/
theorem startBeginsTheCall : Obligations.StartBeginsTheCall := by
  intro s h hn
  rw [h.exec_start, beginCall_of_rows hn]

/-- `START` with an entry check that applies aborts with its cause (rules R226, R229). -/
theorem exec_start_of_entryCheck {s : State} (hidle : s.status ≠ .busy) (hw : s.written.all = true)
    {c : Cause} (hc : s.entryChecks = some c) : exec .start s = .next (s.raiseAbort c) := by
  simp [exec, execStart, hidle, hw, hc]

/-- A `BPP` outside 1..8 is the first thing the entry checks look at (rule R229). -/
theorem entryChecks_of_bad_bpp {s : State} (h : s.bpp.toNat = 0 ∨ 8 < s.bpp.toNat) :
    ∃ c, s.entryChecks = some c := by
  rcases h with hzero | hbig
  · exact ⟨.bppZero, by simp [State.entryChecks, hzero]⟩
  · exact ⟨.bppTooLarge, if_pos hbig⟩

/-- Settles O28: without rows only `BPP` matters to the launch premises. -/
theorem emptyBufferIsDoneAtOnce : Obligations.EmptyBufferIsDoneAtOnce := by
  intro s hidle hw hn
  refine ⟨fun hpos hle => ?_, fun hbad => ?_⟩
  · have hpremises : LaunchPremises s := ⟨hidle, hw, hpos, hle, .inl hn, .inl hn, .inl hn⟩
    rw [hpremises.exec_start, beginCall_of_empty hn]
    exact ⟨_, rfl, rfl, rfl, rfl, rfl, ⟨rfl, rfl, rfl, rfl, rfl, rfl⟩, rfl, rfl⟩
  · obtain ⟨c, hc⟩ := entryChecks_of_bad_bpp hbad
    exact ⟨_, exec_start_of_entryCheck hidle hw hc, rfl⟩

/-- The begin of a call selects the kernels, with rows or without (rules R181, R182). -/
@[simp] theorem beginCall_sel (s : State) : s.beginCall.sel = selectAll s.params s.bpp.toNat := by
  by_cases hn : s.nrows = 0
  · rw [beginCall_of_empty hn]; rfl
  · rw [beginCall_of_rows hn]

/-- Legal constants never have the ARM family beside an x86 one (rule R36). -/
theorem Params.no_x86_of_va {p : Params} (h : p.wf = true) (hva : p.feat.getLsbD 2 = true) :
    p.feat.getLsbD 0 = false ∧ p.feat.getLsbD 1 = false := by
  simp only [Params.wf, hva, Bool.not_true, Bool.false_or, Bool.and_eq_true, Bool.not_eq_true'] at h
  exact h.2

/-- Settles O33: the selection of rule R186 by its three tests, of which legal constants exclude VA beside another. -/
theorem startSelectsByFeatureAndThreshold : Obligations.StartSelectsByFeatureAndThreshold := by
  intro s t op hwf h hexec thr vx1 vx2 va
  obtain rfl : s.beginCall = t := Host.Outcome.next.inj (h.exec_start.symm.trans hexec)
  have hsel : s.beginCall.sel.get op =
      if va then .va else if vx2 then .vx2 else if vx1 then .vx1 else .scalar := by
    rw [beginCall_sel, selectAll, Sel.get_ofFn]
    rfl
  have hexcl (hva : va) : ¬ vx1 ∧ ¬ vx2 := by
    obtain ⟨h0, h1⟩ := Params.no_x86_of_va hwf hva.1
    exact ⟨fun hvx1 => Bool.false_ne_true (h0.symm.trans hvx1.1),
      fun hvx2 => Bool.false_ne_true (h1.symm.trans hvx2.1)⟩
  rw [hsel]
  by_cases hva : va
  · simp [hva, hexcl hva]
  · by_cases hvx2 : vx2
    · simp [hva, hvx2]
    · by_cases hvx1 : vx1 <;> simp [hva, hvx2, hvx1]

end Sys2Proof.Machine
end

section
/-! PROOFS. The micro-steps: a row run in one step is its micro-steps, from its fetch or from inside it, and a call
ends within its micro-steps (rules R189 to R196). -/

namespace Sys2Proof.Machine

/-! One micro-step, phase by phase -/

/-- The fetch of a row begins it (rule R189). -/
theorem microStep_of_fetch {s : State} (hbusy : s.status = .busy) (hphase : s.phase = .fetch)
    (hrow : s.row ≠ s.nrows) {o : Op} (ho : s.fetchInstr.op = some o) : s.microStep = s.beginRow o := by
  simp only [State.microStep, hbusy, if_true, hphase, State.fetchPhase, hrow, if_false, ho]

/-- The fetch at the end of the buffer completes the call (rule R195). -/
theorem microStep_at_end {s : State} (hbusy : s.status = .busy) (hphase : s.phase = .fetch)
    (hrow : s.row = s.nrows) : s.microStep = s.complete := by
  simp only [State.microStep, hbusy, if_true, hphase, State.fetchPhase, hrow]

/-- The group phase of a `NOP` row makes no group step (rule R193). -/
theorem microStep_of_nop {s : State} (hbusy : s.status = .busy) (hphase : s.phase = .group)
    (ho : filterOf s.op = none) : s.microStep = { s with phase := .retire } := by
  simp only [State.microStep, hbusy, if_true, hphase, State.groupPhase, ho]

/-- The group phase before the last group makes a group step (rule R191). -/
theorem microStep_of_group {s : State} {op : Filter} (hbusy : s.status = .busy) (hphase : s.phase = .group)
    (ho : filterOf s.op = some op) (hgrp : s.grp ≠ s.groups) : s.microStep = s.advanceGroup op := by
  simp only [State.microStep, hbusy, if_true, hphase, State.groupPhase, ho, hgrp, if_false]

/-- The group phase after the last group moves on to the retire step (rule R191). -/
theorem microStep_of_last_group {s : State} {op : Filter} (hbusy : s.status = .busy) (hphase : s.phase = .group)
    (ho : filterOf s.op = some op) (hgrp : s.grp = s.groups) : s.microStep = { s with phase := .retire } := by
  simp only [State.microStep, hbusy, if_true, hphase, State.groupPhase, ho, hgrp]

/-- The retire phase retires the row (rule R194). -/
theorem microStep_of_retire {s : State} (hbusy : s.status = .busy) (hphase : s.phase = .retire) :
    s.microStep = s.retireRow := by
  simp only [State.microStep, hbusy, if_true, hphase]

/-! The rest of a row in progress, counted -/

/-- A row is in progress, and its length and its group counter are AW-bit values. -/
structure InRow (s : State) : Prop where
  rowlen_lt : s.rowlen < 2 ^ s.params.aw
  grp_lt    : s.grp < 2 ^ s.params.aw
  busy      : s.status = .busy
  inside    : s.phase ≠ .fetch

/-- How many micro-steps the row in progress has left: its groups unless it is a `NOP` row, the move to the retire
step, the retire step (rules R191, R193, R194). -/
def State.microStepsLeft (s : State) : Nat :=
  match s.phase with
  | .fetch => 0
  | .group => (if filterOf s.op = none then 0 else s.groupsLeft) + 2
  | .retire => 1

/-- A row has fewer groups than bytes, so `G` is an AW-bit value where `ROWLEN` is one. -/
theorem groups_lt_of_rowlen_lt {s : State} (h : s.rowlen < 2 ^ s.params.aw) : s.groups < 2 ^ s.params.aw :=
  ((Nat.div_le_self _ _).trans (Nat.sub_le _ _)).trans_lt h

/-- How many groups are left: `GRP` counts up to `G`, from above `G` through the wrap to 0 (rule R191). -/
theorem groupsLeft_eq {s : State} (hlen : s.rowlen < 2 ^ s.params.aw) (hgrp : s.grp < 2 ^ s.params.aw) :
    s.groupsLeft = if s.grp ≤ s.groups then s.groups - s.grp else s.groups + 2 ^ s.params.aw - s.grp := by
  have hgroups := groups_lt_of_rowlen_lt hlen
  rw [State.groupsLeft]
  split
  · rw [Nat.sub_add_comm ‹_›, State.wrap, Nat.add_mod_right, Nat.mod_eq_of_lt (by omega)]
  · exact State.wrap_of_lt (by omega)

/-- No group is left exactly where `GRP` has reached `G` (rule R191). -/
theorem groupsLeft_eq_zero_iff {s : State} (hlen : s.rowlen < 2 ^ s.params.aw) (hgrp : s.grp < 2 ^ s.params.aw) :
    s.groupsLeft = 0 ↔ s.grp = s.groups := by
  rw [groupsLeft_eq hlen hgrp]
  split <;> omega

/-- A group step leaves one group less (rule R191). -/
theorem groupsLeft_advanceGroup {s : State} (hlen : s.rowlen < 2 ^ s.params.aw) (hgrp : s.grp < 2 ^ s.params.aw)
    (hne : s.grp ≠ s.groups) (op : Filter) : s.groupsLeft = (s.advanceGroup op).groupsLeft + 1 := by
  have hnext : (s.advanceGroup op).groupsLeft = _ := groupsLeft_eq hlen (s.wrap_lt (s.grp + 1))
  have hgroups : (s.advanceGroup op).groups = s.groups := rfl
  have hlt := groups_lt_of_rowlen_lt hlen
  rw [hnext, groupsLeft_eq hlen hgrp, hgroups, State.advanceGroup_grp, State.advanceGroup_params]
  rcases Nat.lt_or_eq_of_le (Nat.succ_le_of_lt hgrp) with hfits | hwraps
  · rw [State.wrap_of_lt hfits]
    split <;> split <;> omega
  · have hzero : s.wrap (s.grp + 1) = 0 := by rw [State.wrap, ← Nat.succ_eq_add_one, hwraps, Nat.mod_self]
    rw [hzero]
    split <;> split <;> omega

/-! The end of a row in progress -/

/-- A row in the retire phase ends by the retire step. -/
theorem finishRow_of_retire {s : State} (hphase : s.phase = .retire) : s.finishRow = s.retireRow := by
  simp only [State.finishRow, hphase]

/-- A `NOP` row ends by the retire step (rule R193). -/
theorem finishRow_of_nop {s : State} (hphase : s.phase = .group) (ho : filterOf s.op = none) :
    s.finishRow = s.retireRow := by
  simp only [State.finishRow, hphase, ho]

/-- A row that reconstructs ends by its groups left and the retire step (rule R191). -/
theorem finishRow_of_group {s : State} {op : Filter} (hphase : s.phase = .group) (ho : filterOf s.op = some op) :
    s.finishRow = (State.runGroups op s.groupsLeft s).retireRow := by
  simp only [State.finishRow, hphase, ho]

/-- A row that reconstructs has its groups left, the move to the retire step and the retire step to make. -/
theorem microStepsLeft_of_group {s : State} {op : Filter} (hphase : s.phase = .group)
    (ho : filterOf s.op = some op) : s.microStepsLeft = s.groupsLeft + 2 := by
  simp only [State.microStepsLeft, hphase, ho, reduceCtorEq, if_false]

/-- One micro-step inside a row: either it ends the row and was the last one left, or the row goes on to the same
end with one micro-step less left. -/
theorem InRow.microStep {s : State} (h : InRow s) :
    (s.microStep = s.finishRow ∧ s.microStepsLeft = 1) ∨
    (InRow s.microStep ∧ s.microStep.finishRow = s.finishRow ∧
      s.microStepsLeft = s.microStep.microStepsLeft + 1) := by
  obtain ⟨hlen, hgrp, hbusy, hinside⟩ := h
  have hmoves : InRow { s with phase := .retire } := ⟨hlen, hgrp, hbusy, nofun⟩
  cases hphase : s.phase with
  | fetch => exact absurd hphase hinside
  | retire =>
    refine .inl ⟨(microStep_of_retire hbusy hphase).trans (finishRow_of_retire hphase).symm, ?_⟩
    simp only [State.microStepsLeft, hphase]
  | group =>
    right
    cases ho : filterOf s.op with
    | none =>
      rw [microStep_of_nop hbusy hphase ho, finishRow_of_nop hphase ho]
      refine ⟨hmoves, rfl, ?_⟩
      simp only [State.microStepsLeft, hphase, ho, if_true]
    | some op =>
      have hleft := microStepsLeft_of_group hphase ho
      by_cases hlast : s.grp = s.groups
      · rw [microStep_of_last_group hbusy hphase ho hlast, finishRow_of_group hphase ho, hleft,
          (groupsLeft_eq_zero_iff hlen hgrp).mpr hlast]
        exact ⟨hmoves, rfl, rfl⟩
      · have hleft' := microStepsLeft_of_group (s := s.advanceGroup op) hphase ho
        have hend' := finishRow_of_group (s := s.advanceGroup op) hphase ho
        have hless := groupsLeft_advanceGroup hlen hgrp hlast op
        rw [microStep_of_group hbusy hphase ho hlast]
        refine ⟨⟨hlen, s.wrap_lt _, hbusy, hinside⟩, ?_, by omega⟩
        rw [hend', finishRow_of_group hphase ho, hless, State.runGroups]

/-- The micro-steps left end the row in progress, and none before the last does. -/
theorem InRow.microSteps {s : State} (h : InRow s) :
    State.microSteps s.microStepsLeft s = s.finishRow ∧
    ∀ m < s.microStepsLeft, InRow (State.microSteps m s) := by
  induction hn : s.microStepsLeft generalizing s with
  | zero => obtain ⟨-, hone⟩ | ⟨-, -, hmore⟩ := h.microStep <;> omega
  | succ n ih =>
    have hlater (hrest : ∀ m < n, InRow (State.microSteps m s.microStep)) :
        ∀ m < n + 1, InRow (State.microSteps m s)
      | 0, _ => h
      | m + 1, hm => hrest m (Nat.lt_of_succ_lt_succ hm)
    obtain ⟨hend, hone⟩ | ⟨hrow, hend, hmore⟩ := h.microStep
    · obtain rfl : n = 0 := by omega
      exact ⟨hend, hlater fun m hm => absurd hm (Nat.not_lt_zero m)⟩
    · obtain ⟨hrun, hrest⟩ := ih hrow (by omega)
      exact ⟨hrun.trans hend, hlater hrest⟩

/-! A whole row from its fetch -/

/-- The no-op rows are the row instructions without a kernel (rules R95, R96, R193). -/
theorem isNopRow_eq_true_iff {i : Instr} {o : Op} (ho : i.op = some o) :
    isNopRow i = true ↔ filterOf o = none := by
  cases i with
  | noneTag | upFirst | rsvd05 | rsvd06to07 | rsvd08to0F | rsvd10to1F | rsvd20to3F | rsvd40to7F | rsvd80toFF =>
    cases ho
    exact ⟨fun _ => rfl, fun _ => rfl⟩
  | sub | up | avg | avgTop | paeth | paethFirst =>
    cases ho
    exact ⟨nofun, nofun⟩
  | start => cases ho

/-- The micro-steps of the row at the program counter: its fetch, its groups unless it is a `NOP` row, the move to
the retire step, the retire step (rule R196). -/
def State.rowMicroSteps (s : State) : Nat := (if isNopRow s.fetchInstr then 0 else s.groups) + 3

/-- A whole row is its micro-steps, and the call is `BUSY` at each of them (rule R197). -/
theorem microSteps_runRow {s : State} (hlen : s.rowlen < 2 ^ s.params.aw) (hbusy : s.status = .busy)
    (hphase : s.phase = .fetch) (hrow : s.row ≠ s.nrows) {o : Op} (ho : s.fetchInstr.op = some o) :
    State.microSteps s.rowMicroSteps s = s.runRow o ∧
    ∀ m < s.rowMicroSteps, (State.microSteps m s).status = .busy := by
  have hbegin : InRow (s.beginRow o) := ⟨hlen, Nat.two_pow_pos _, hbusy, nofun⟩
  have hgroups : (s.beginRow o).groupsLeft = s.groups :=
    (groupsLeft_eq (s := s.beginRow o) hlen (Nat.two_pow_pos _)).trans (if_pos (Nat.zero_le _))
  have hcount : s.rowMicroSteps = (s.beginRow o).microStepsLeft + 1 := by
    simp only [State.rowMicroSteps, isNopRow_eq_true_iff ho, State.microStepsLeft, State.beginRow_phase,
      State.beginRow_op, hgroups]
  obtain ⟨hrun, hinside⟩ := hbegin.microSteps
  have hstep := microStep_of_fetch hbusy hphase hrow ho
  rw [hcount]
  refine ⟨?_, fun m hm => ?_⟩
  · rw [State.microSteps, hstep, hrun, State.runRow]
  · cases m with
    | zero => exact hbusy
    | succ m =>
      rw [State.microSteps, hstep]
      exact (hinside m (Nat.lt_of_succ_lt_succ hm)).busy

/-- Settles O16: the row instruction's meaning is its operation's row, which is its micro-steps. -/
theorem rowIsItsMicroSteps : Obligations.RowIsItsMicroSteps := by
  intro s hlen hbusy hphase hrow
  obtain ⟨o, ho⟩ := decodeRow_op s.first s.fetchTag
  obtain ⟨hrun, -⟩ := microSteps_runRow hlen hbusy hphase hrow ho
  exact (exec_row ho s).trans (congrArg _ hrun.symm)

/-- PUE's move inside a row runs the rest of the row (log entries 6 and 7). -/
theorem pueMove_inside_row {s : State} (hbusy : s.status = .busy) (hinside : s.phase ≠ .fetch) :
    s.pueMove = .next s.finishRow := by
  cases hphase : s.phase with
  | fetch => exact absurd hphase hinside
  | group | retire => simp only [State.pueMove, hbusy, if_true, hphase]

/-- Settles O17: the micro-steps left are the rest of the row, and the end of a row is at a fetch. -/
theorem stepInsideARowIsMicroSteps : Obligations.StepInsideARowIsMicroSteps := by
  intro s hlen hgrp hhost hbusy hinside
  obtain ⟨hrun, hbefore⟩ := InRow.microSteps ⟨hlen, hgrp, hbusy, hinside⟩
  refine ⟨s.microStepsLeft, ?_, ?_, fun m hm => (hbefore m hm).inside⟩
  · rw [step_of_host_nil hhost, pueMove_inside_row hbusy hinside, hrun]
  · rw [hrun]
    exact (endsRow_finishRow hinside).phase_eq

/-! The rows of a call -/

/-- Busy for `j` micro-steps and, from there, for `k` more is busy for `j + k`. -/
theorem busy_microSteps_add {s : State} {j k : Nat} (hj : ∀ m < j, (State.microSteps m s).status = .busy)
    (hk : ∀ m < k, (State.microSteps m (State.microSteps j s)).status = .busy) :
    ∀ m < j + k, (State.microSteps m s).status = .busy := by
  intro m hm
  rcases Nat.lt_or_ge m j with hlt | hge
  · exact hj m hlt
  · obtain ⟨i, rfl⟩ := Nat.exists_eq_add_of_le hge
    rw [State.microSteps_add]
    exact hk i (by omega)

/-- A row takes at least three micro-steps and at most `G + 3` (rule R196). -/
theorem rowMicroSteps_bounds (s : State) : 3 ≤ s.rowMicroSteps ∧ s.rowMicroSteps ≤ s.groups + 3 := by
  rw [State.rowMicroSteps]
  split <;> omega

/-- From the fetch of a row with `n` rows left the call is `DONE` after between `3·n + 1` and `n·(G + 3) + 1`
micro-steps, and `BUSY` until then (rule R196). -/
theorem Inv.microSteps_to_done {s : State} (h : Inv s) (hbusy : s.status = .busy) (hphase : s.phase = .fetch)
    {n : Nat} (hn : s.row + n = s.nrows) :
    ∃ k, 3 * n + 1 ≤ k ∧ k ≤ n * (s.groups + 3) + 1 ∧ (State.microSteps k s).status = .done ∧
      ∀ m < k, (State.microSteps m s).status = .busy := by
  induction n generalizing s with
  | zero =>
    refine ⟨1, by omega, by omega, ?_, fun m hm => ?_⟩
    · rw [State.microSteps, microStep_at_end hbusy hphase hn]
      rfl
    · obtain rfl : m = 0 := by omega
      exact hbusy
  | succ n ih =>
    have hrow : s.row < s.nrows := by omega
    obtain ⟨o, ho⟩ := decodeRow_op s.first s.fetchTag
    obtain ⟨hrun, hbefore⟩ := microSteps_runRow h.rowlen_lt hbusy hphase hrow.ne ho
    have hend := endsRow_runRow s o
    have hcontrol := hend.control
    have hsucc := hend.row_succ hrow h.nrows_lt
    have hgroups : (s.runRow o).groups = s.groups := by
      simp only [State.groups, hcontrol.rowlen, hcontrol.bpp]
    obtain ⟨hlo, hhi⟩ := rowMicroSteps_bounds s
    obtain ⟨k, hk_lo, hk_hi, hdone, hafter⟩ := ih (h.endsRow hbusy (fun _ => hrow.ne) hend)
      (hcontrol.status.trans hbusy) hend.phase_eq (by rw [hsucc, hcontrol.nrows]; omega)
    rw [hgroups] at hk_hi
    rw [← hrun] at hdone hafter
    refine ⟨s.rowMicroSteps + k, by omega, ?_, ?_, busy_microSteps_add hbefore hafter⟩
    · rw [Nat.succ_mul]
      omega
    · rw [State.microSteps_add]
      exact hdone

/-- Settles O38: at the fetch of row 0 every row is left. -/
theorem callEndsWithinItsMicroSteps : Obligations.CallEndsWithinItsMicroSteps := by
  intro s h hbusy hphase hrow
  exact h.microSteps_to_done hbusy hphase (by rw [hrow, Nat.zero_add])

end Sys2Proof.Machine
end

section
/-! PROOFS. The tables' words; a no-op row; a group step's history registers; and the addresses of a row in the buffer
(rules R95, R96, R180, R191 to R194, R202, R224). -/

namespace Sys2Proof.Machine

/-- Settles O3, word by word. -/
theorem tableWordsDecode : Obligations.TableWordsDecode :=
  ⟨rfl, rfl, rfl, rfl, rfl, rfl, rfl, rfl, rfl, rfl⟩

/-! A no-op row -/

/-- A no-op row's operation is `NOP` (rules R95, R96). -/
theorem op_of_isNopRow {i : Instr} (h : isNopRow i = true) : i.op = some .nop := by
  cases i with
  | noneTag | upFirst | rsvd05 | rsvd06to07 | rsvd08to0F | rsvd10to1F | rsvd20to3F | rsvd40to7F | rsvd80toFF => rfl
  | sub | up | avg | avgTop | paeth | paethFirst | start => cases h

/-- Settles O9: a no-op row is its begin and its retirement, whose one store is the tag's. -/
theorem nopRowsKeepTheirPayload : Obligations.NopRowsKeepTheirPayload := by
  intro i s hi hwf
  have hexec : exec i s = .next (s.beginRow .nop).retireRow :=
    (exec_row (op_of_isNopRow hi) s).trans (congrArg _ (runRow_of_nop s rfl))
  have hmem : (s.beginRow .nop).retireRow.mem = s.mem.write s.tagAddr 0 := by
    rw [State.retireRow_mem, State.wrap_tagAddr]
    rfl
  refine ⟨(s.beginRow .nop).retireRow, hexec, ⟨?_, rfl, rfl, rfl, rfl⟩,
    (s.beginRow_control .nop).trans (s.beginRow .nop).retireRow_control, fun addr haddr => ?_,
    rfl, rfl, rfl, rfl, rfl, rfl, rfl⟩
  · rw [hmem, Memory.read_write_same _ _ _ hwf]
  · rw [hmem, Memory.read_write_ne _ _ haddr]

/-! A group step -/

/-- Settles O18: the micro-step is the group step, whose registers are the groups loaded and the group stored. -/
theorem groupStepMovesTheHistory : Obligations.GroupStepMovesTheHistory := by
  intro op s h habove hg hbusy hphase ho
  have hstep : s.microStep = s.advanceGroup op := microStep_of_group hbusy hphase ho hg.ne
  rw [hstep]
  refine ⟨h.advanceGroup_grp hg op, hphase, rfl, rfl, fun hop => ?_, fun k hk => ⟨?_, ?_, fun hop => ?_⟩⟩
  · exact if_neg (Bool.eq_false_iff.mp hop)
  · exact h.loadGroup_grpAddr_get hg hk
  · exact (h.read_advanceGroup_lane hg hk).symm
  · exact (habove hop).aboveGroup_get hop hg hk

/-! The addresses -/

/-- The buffer as a range of addresses (rule R60). -/
theorem inBuffer_eq_true_iff {s : State} {addr : Nat} :
    s.inBuffer addr = true ↔ s.base ≤ addr ∧ addr < s.base + s.nrows * s.rowlen := by
  rw [State.inBuffer, Bool.and_eq_true, decide_eq_true_eq, decide_eq_true_eq]

/-- A row ends where the next begins (rule R14). -/
theorem tagAt_succ (s : State) (i : Nat) : s.tagAt (i + 1) = s.tagAt i + s.rowlen := by
  simp only [State.tagAt, Nat.succ_mul, Nat.add_assoc]

/-- The rows stand in order (rule R14). -/
theorem tagAt_mono (s : State) {i j : Nat} (h : i ≤ j) : s.tagAt i ≤ s.tagAt j :=
  Nat.add_le_add_left (Nat.mul_le_mul_right _ h) _

/-- A row of the buffer ends inside it (rule R60). -/
theorem tagAt_add_rowlen_le {s : State} {i : Nat} (hi : i < s.nrows) :
    s.tagAt i + s.rowlen ≤ s.base + s.nrows * s.rowlen :=
  tagAt_succ s i ▸ tagAt_mono s hi

/-- The tag of a row at the program counter lies in the buffer (rules R60, R202). -/
theorem RowReady.tagAddr_in_buffer {s : State} (h : RowReady s) : s.inBuffer s.tagAddr = true := by
  have hend := tagAt_add_rowlen_le h.row_lt
  have hpos := h.rowlen_pos
  rw [h.tagAddr_eq, inBuffer_eq_true_iff]
  exact ⟨Nat.le_add_right _ _, by omega⟩

/-- A payload byte of a row of the buffer lies in the buffer and in the address space (rules R60, R224). -/
theorem RowReady.payAt_in_buffer {s : State} (h : RowReady s) {i j : Nat} (hi : i < s.nrows)
    (hj : j < s.payloadLen) : s.inBuffer (s.payAt i j) = true ∧ s.payAt i j < 2 ^ s.params.aw := by
  have hrange := h.legal.range.resolve_left (Nat.ne_zero_of_lt h.row_lt)
  have hend := tagAt_add_rowlen_le hi
  simp only [State.payloadLen] at hj
  simp only [State.tagAt] at hend
  rw [inBuffer_eq_true_iff]
  simp only [State.payAt]
  omega

/-- A group of a row of the buffer that starts at its payload byte reaches bytes of the buffer only (rules R152,
R224). -/
theorem RowReady.group_in_buffer {s : State} (h : RowReady s) {i addr : Nat} (hi : i < s.nrows)
    (hg : s.grp < s.groups) (haddr : addr = s.payAt i (s.grp * s.bpp.toNat)) :
    ∀ k < s.bpp.toNat, s.inBuffer (addr + k) = true ∧ addr + k < 2 ^ s.params.aw := by
  intro k hk
  rw [haddr, State.payAt, Nat.add_assoc]
  exact h.payAt_in_buffer hi (lane_lt_payloadLen hg hk)

/-- The current group starts at its payload byte, without wrap (rule R202). -/
theorem RowReady.grpAddr_eq {s : State} (h : RowReady s) (hg : s.grp < s.groups) :
    s.grpAddr = s.payAt s.row (s.grp * s.bpp.toNat) :=
  State.wrap_of_lt (h.payAt_in_buffer h.row_lt (lane_lt_payloadLen hg h.legal.bpp_pos)).2

/-- The group above starts at its payload byte, without wrap (rules R29, R202). -/
theorem AboveReady.aboveAddr_eq {s : State} (h : AboveReady s) (hg : s.grp < s.groups) :
    s.aboveAddr = s.payAt (s.row - 1) (s.grp * s.bpp.toNat) := by
  have habove : s.row - 1 < s.nrows := (Nat.sub_le _ _).trans_lt h.ready.row_lt
  have hlane := lane_lt_payloadLen hg h.ready.legal.bpp_pos
  obtain ⟨-, hfits⟩ := h.ready.payAt_in_buffer habove hlane
  obtain ⟨-, hprev⟩ := h.ready.payAt_in_buffer habove (Nat.zero_lt_of_lt hlane)
  rw [State.aboveAddr, h.prev_eq, State.wrap_of_lt hprev]
  exact State.wrap_of_lt hfits

/-- Settles O20: the tag by its own lemmas, a group by where its first payload byte stands. -/
theorem addressesDoNotWrap : Obligations.AddressesDoNotWrap := by
  intro s h
  refine ⟨h.tagAddr_eq, h.tagAddr_in_buffer, fun hg => ?_, fun hg habove => ?_⟩
  · exact ⟨h.grpAddr_eq hg, h.group_in_buffer h.row_lt hg (h.grpAddr_eq hg)⟩
  · exact ⟨habove.aboveAddr_eq hg,
      h.group_in_buffer ((Nat.sub_le _ _).trans_lt h.row_lt) hg (habove.aboveAddr_eq hg)⟩

end Sys2Proof.Machine
end

section
/-! PROOFS. Bytes read from and written to memory in a run (`MemRead` and `MemWrite` of rule R13). -/

namespace Sys2Proof.Machine.Memory

/-- Writing bytes keeps the canonical form. -/
theorem writeBytes_wf {m : Memory} (hm : m.wf = true) (addr : Nat) (vs : List Byte) :
    (writeBytes addr vs m).wf = true := by
  induction vs generalizing addr m with
  | nil => exact hm
  | cons v vs ih => exact ih (write_wf m addr v hm) (addr + 1)

/-- Writing bytes leaves every byte outside them alone. -/
theorem read_writeBytes_outside (m : Memory) {addr a : Nat} (vs : List Byte)
    (h : a < addr ∨ addr + vs.length ≤ a) : (writeBytes addr vs m).read a = m.read a := by
  induction vs generalizing addr m with
  | nil => rfl
  | cons v vs ih =>
    rw [List.length_cons] at h
    exact (ih (m.write addr v) (by omega)).trans (read_write_ne m v (by omega))

/-- The bytes written are read back. -/
theorem read_writeBytes {m : Memory} (hm : m.wf = true) (addr : Nat) {vs : List Byte} {j : Nat}
    (hj : j < vs.length) : (writeBytes addr vs m).read (addr + j) = vs.getD j 0 := by
  induction vs generalizing addr j m with
  | nil => exact absurd hj (Nat.not_lt_zero j)
  | cons v vs ih =>
    cases j with
    | zero =>
      exact (read_writeBytes_outside _ vs (.inl (Nat.lt_succ_self addr))).trans (read_write_same m addr v hm)
    | succ j =>
      rw [List.getD_cons_succ, ← ih (write_wf m addr v hm) (addr + 1) (Nat.lt_of_succ_lt_succ hj),
        Nat.add_right_comm]
      rfl

/-- Bytes written to two canonical memories leave them agreeing where they agreed before. -/
theorem read_writeBytes_congr {m m' : Memory} (hm : m.wf = true) (hm' : m'.wf = true) (addr : Nat)
    (vs : List Byte) {a : Nat} (h : m.read a = m'.read a) :
    (writeBytes addr vs m).read a = (writeBytes addr vs m').read a := by
  induction vs generalizing addr m m' with
  | nil => exact h
  | cons v vs ih =>
    refine ih (write_wf m addr v hm) (write_wf m' addr v hm') (addr + 1) ?_
    rw [read_write m _ _ _ hm, read_write m' _ _ _ hm', h]

/-- Memories that agree on the bytes of a run read it alike. -/
theorem readBytes_congr {m m' : Memory} {addr n : Nat} (h : ∀ j < n, m.read (addr + j) = m'.read (addr + j)) :
    m.readBytes addr n = m'.readBytes addr n :=
  List.map_congr_left fun j hj => h j (List.mem_range.mp hj)

end Sys2Proof.Machine.Memory
end

section
/-! PROOFS. A whole call is the one-function form: each row run at its fetch is one row of `Unfilter` (rules R133,
R198). -/

namespace Sys2Proof.Machine

/-! One row of the one-function form -/

/-- An operation that reads no row above makes the whole-row form ignore it (rule R133). -/
theorem rowKernel_congr_prev {op : Filter} (hop : readsAbove op = false) (bpp : Nat) (filt prev prev' : List Byte) :
    rowKernel op bpp filt prev = rowKernel op bpp filt prev' := by
  have hbyte : rowByte op bpp filt prev = rowByte op bpp filt prev' := by
    cases op with
    | sub | avgtop => rfl
    | up | avg | paeth => cases hop
  have hprefix (n : Nat) : rowPrefix op bpp filt prev n = rowPrefix op bpp filt prev' n := by
    induction n with
    | zero => rfl
    | succ n ih => simp only [rowPrefix, ih, hbyte]
  exact hprefix filt.length

section
variable {m : Memory} {base rowlen i : Nat} {o : Op}
  (ho : (decodeRow (decide (i = 0)) (m.read (base + i * rowlen))).op = some o) (bpp : Nat)
include ho

/-- A `NOP` row of the one-function form clears its tag only (rules R193, R198). -/
theorem unfilterRow_of_nop (hf : filterOf o = none) :
    unfilterRow base rowlen bpp i m = m.write (base + i * rowlen) 0 := by
  simp only [unfilterRow, ho, Option.bind_some, hf]

/-- Another row of the one-function form writes its payload and clears its tag (rule R198). -/
theorem unfilterRow_of_filter {op : Filter} (hf : filterOf o = some op) :
    unfilterRow base rowlen bpp i m =
      (Memory.writeBytes (base + i * rowlen + 1) (unfilterPayload m base rowlen bpp i op) m).write
        (base + i * rowlen) 0 := by
  simp only [unfilterRow, ho, Option.bind_some, hf]

end

/-! One row of the machine -/

/-- A `NOP` row clears its tag only (rules R193, R194). -/
theorem RowReady.runRow_mem_of_nop {s : State} (h : RowReady s) {o : Op} (hf : filterOf o = none) :
    (s.runRow o).mem = s.mem.write (s.tagAt s.row) 0 := by
  rw [runRow_of_nop s hf, State.retireRow_mem, State.wrap_tagAddr, ← h.tagAddr_eq]
  rfl

/-- A row that reconstructs writes the whole-row form's payload and clears its tag (rules R133, R194). -/
theorem RowReady.runRow_mem_of_filter {s : State} (h : RowReady s) {o : Op} {op : Filter}
    (hf : filterOf o = some op) (habove : readsAbove op = true → AboveReady s) :
    (s.runRow o).mem = (Memory.writeBytes (s.payAt s.row 0)
      (rowKernel op s.bpp.toNat (s.payload s.row) (s.rowAbove op)) s.mem).write (s.tagAt s.row) 0 := by
  obtain ⟨-, -, -, -, -, -, hmem, -, -⟩ := s.runRow_spec o
  obtain ⟨hwf, htag⟩ := hmem h.mem_wf
  have hbytes := Memory.writeBytes_wf h.mem_wf (s.payAt s.row 0)
    (rowKernel op s.bpp.toNat (s.payload s.row) (s.rowAbove op))
  refine Memory.ext hwf (Memory.write_wf _ _ _ hbytes) fun addr => ?_
  rw [Memory.read_write _ _ _ _ hbytes]
  split
  case isTrue heq => rw [heq, ← h.tagAddr_eq, htag]
  case isFalse hne =>
    by_cases hin : s.payAt s.row 0 ≤ addr ∧ addr < s.payAt s.row 0 + s.payloadLen
    · obtain ⟨j, rfl⟩ := Nat.exists_eq_add_of_le hin.1
      have hj : j < s.payloadLen := Nat.lt_of_add_lt_add_left hin.2
      rw [Memory.read_writeBytes h.mem_wf _ (by simpa using hj)]
      exact h.read_runRow_payAt hf habove hj
    · have hlen : (rowKernel op s.bpp.toNat (s.payload s.row) (s.rowAbove op)).length = s.payloadLen := by simp
      have hout : addr < s.tagAt s.row ∨ s.tagAt s.row + s.rowlen ≤ addr := by
        simp only [State.payAt, State.payloadLen] at hin
        simp only [State.tagAt] at hne ⊢
        omega
      rw [Memory.read_writeBytes_outside _ _ (by rw [hlen]; omega)]
      exact h.runRow_outside o addr hout

/-- No operation of the first row reads a row above (rules R96, R192). -/
theorem readsAbove_of_first {tag : Byte} {o : Op} {op : Filter} (ho : (decodeRow true tag).op = some o)
    (hf : filterOf o = some op) : readsAbove op = false := by
  rw [tagDecodeIsTheDecodeFunction true tag, Option.some.injEq] at ho
  subst ho
  simp only [if_true] at hf
  split_ifs at hf <;> simp only [filterOf, reduceCtorEq, Option.some.injEq] at hf <;> subst hf <;> rfl

section
variable {s : State} (h : AtFetch s) (hrow : s.row < s.nrows) {o : Op} (ho : s.fetchInstr.op = some o)
include h hrow ho

/-- The operation at the program counter, by the tag's address without wrap (rules R28, R189). -/
theorem AtFetch.decodeRow_op :
    (decodeRow (decide (s.row = 0)) (s.mem.read (s.base + s.row * s.rowlen))).op = some o := by
  rw [fetchInstr_eq, (h.rowReady hrow).tagAddr_eq] at ho
  exact ho

/-- Where the operation at the program counter reads the row above, that row is in place (rules R29, R192). -/
theorem AtFetch.aboveReady {op : Filter} (hf : filterOf o = some op) (hop : readsAbove op = true) : AboveReady s := by
  have hpos : 0 < s.row := by
    refine Nat.pos_of_ne_zero fun hzero => ?_
    have hfirst := h.decodeRow_op hrow ho
    rw [decide_eq_true hzero] at hfirst
    exact Bool.false_ne_true ((readsAbove_of_first hfirst hf).symm.trans hop)
  exact ⟨h.rowReady hrow, hpos, h.running.prev_eq hpos⟩

/-- A row run at its fetch is that row of the one-function form (rule R198). -/
theorem AtFetch.runRow_mem :
    (s.runRow o).mem = unfilterRow s.base s.rowlen s.bpp.toNat s.row s.mem := by
  have hready := h.rowReady hrow
  have hdecode := h.decodeRow_op hrow ho
  cases hf : filterOf o with
  | none => exact (hready.runRow_mem_of_nop hf).trans (unfilterRow_of_nop hdecode _ hf).symm
  | some op =>
    have habove := h.aboveReady hrow ho hf
    have hpayload : rowKernel op s.bpp.toNat (s.payload s.row) (s.rowAbove op) =
        unfilterPayload s.mem s.base s.rowlen s.bpp.toNat s.row op := by
      by_cases hop : readsAbove op = true
      · rw [unfilterPayload, State.rowAbove, if_pos hop, if_pos (habove hop).not_first]
        rfl
      · exact rowKernel_congr_prev (Bool.eq_false_iff.mpr hop) _ _ _ _
    rw [unfilterRow_of_filter hdecode _ hf, ← hpayload]
    exact hready.runRow_mem_of_filter hf habove

end

/-! What the rows of a call keep -/

/-- The rows of a call keep what is always true: a call is followed to its end for its frame alone. -/
theorem rowsKeep_true : RowsKeep fun _ => True := fun _ _ _ _ _ _ => trivial

/-- Memory at the fetch of a row is the one-function form of the rows before it (rule R198). -/
theorem rowsKeep_unfilter (m : Memory) :
    RowsKeep fun s => s.mem = unfilter s.base s.rowlen s.bpp.toNat s.row m := by
  intro s o h hrow ho hmem
  obtain ⟨-, hsucc⟩ := h.runRow hrow o
  have hcontrol := (endsRow_runRow s o).control
  rw [h.runRow_mem hrow ho, hsucc, hcontrol.base, hcontrol.rowlen, hcontrol.bpp, unfilter, ← hmem]

/-- The bytes outside the buffer stay as they were (rule R62). -/
theorem rowsKeep_outsideBuffer (m : Memory) :
    RowsKeep fun s => ∀ addr, s.inBuffer addr = false → s.mem.read addr = m.read addr := by
  intro s o h hrow _ hkept addr hout
  have hcontrol := (endsRow_runRow s o).control
  have hout' : s.inBuffer addr = false := by
    rw [← hout]
    simp only [State.inBuffer, hcontrol.base, hcontrol.nrows, hcontrol.rowlen]
  have hrange := mt inBuffer_eq_true_iff.mpr (Bool.eq_false_iff.mp hout')
  have hend := tagAt_add_rowlen_le hrow
  have hbase : s.base ≤ s.tagAt s.row := Nat.le_add_right _ _
  exact ((h.rowReady hrow).runRow_outside o addr (by omega)).trans (hkept addr hout')

/-! The call -/

/-- Under the launch premises a call ends in `DONE` with `CAUSE` 0 (rules R181, R195). -/
theorem LaunchPremises.run_call_done {s : State} (h : LaunchPremises s) (hinv : Inv s) :
    ∃ t, core.run (s.nrows + 2) s.call = .next t ∧ t.status = .done ∧ t.cause = 0 := by
  obtain ⟨u, hrun, -, -, hcontrol, -⟩ := h.run_call rowsKeep_true hinv trivial
  exact ⟨u.complete, hrun, rfl, hcontrol.cause⟩

section
variable {s t : State} (h : LaunchPremises s) (hinv : Inv s) (hrun : core.run (s.nrows + 2) s.call = .next t)
include h hinv hrun

/-- What the rows of a call keep holds where its last row has ended, in the state the call then leaves. -/
theorem LaunchPremises.call_keeps {P : State → Prop} (hP : RowsKeep P) (hs : P s.launched) :
    ∃ u, u.complete = t ∧ u.row = s.nrows ∧ SameControl s.launched u ∧ P u := by
  obtain ⟨u, hrun', -, hend, hcontrol, hPu⟩ := h.run_call hP hinv hs
  exact ⟨u, Host.Outcome.next.inj (hrun'.symm.trans hrun), hend.trans hcontrol.nrows, hcontrol, hPu⟩

/-- A call leaves the one-function form's memory (rule R198). -/
theorem LaunchPremises.call_mem : t.mem = unfilter s.base s.rowlen s.bpp.toNat s.nrows s.mem := by
  obtain ⟨u, rfl, hend, hcontrol, hmem⟩ := h.call_keeps hinv hrun (rowsKeep_unfilter s.mem) rfl
  rw [hcontrol.base, hcontrol.rowlen, hcontrol.bpp, hend] at hmem
  exact hmem

/-- A call leaves the bytes outside the buffer as they were (rule R198). -/
theorem LaunchPremises.call_outside : OutsideBufferKept s t := by
  obtain ⟨u, rfl, -, hcontrol, hkept⟩ :=
    h.call_keeps hinv hrun (rowsKeep_outsideBuffer s.mem) fun _ _ => rfl
  intro addr hout
  refine hkept addr ?_
  rw [← hout]
  simp only [State.inBuffer, hcontrol.base, hcontrol.nrows, hcontrol.rowlen]
  rfl

end

/-- Settles O35: each row of the call is a row of the one-function form. -/
theorem callRunsToUnfilter : Obligations.CallRunsToUnfilter := by
  intro s hinv h
  obtain ⟨t, hrun, hdone, hcause⟩ := h.run_call_done hinv
  exact ⟨t, hrun, hdone, hcause, h.call_mem hinv hrun, h.call_outside hinv hrun⟩

end Sys2Proof.Machine
end

section
/-! PROOFS. The postconditions of a call (rule R199): the tags, the payloads of the rows without an operation, the
first row's alias, the configuration, and that no feature bit or threshold shows in memory. -/

namespace Sys2Proof.Machine

/-! Rows without an operation -/

/-- A tag of a row without an operation in either mode: 0 or reserved (rules R95, R96, R98). -/
def IsNopTag (tag : Byte) : Prop := tag = 0 ∨ 5 ≤ tag.toNat

/-- Such a tag's operation is `NOP` (rules R95, R96, R98). -/
theorem IsNopTag.decodeRow_op {tag : Byte} (h : IsNopTag tag) (first : Bool) :
    (decodeRow first tag).op = some .nop := by
  rcases h with rfl | h
  · rfl
  · exact decodeRow_op_of_five_le h first

/-- A payload byte of another row lies outside the row (rule R14). -/
theorem payAt_outside_row {s : State} {i j : Nat} (hi : i ≠ s.row) (hj : j < s.payloadLen) :
    s.payAt i j < s.tagAt s.row ∨ s.tagAt s.row + s.rowlen ≤ s.payAt i j := by
  have hpay : s.payAt i j = s.tagAt i + 1 + j := rfl
  simp only [State.payloadLen] at hj
  rcases Nat.lt_or_gt_of_ne hi with hlt | hgt
  · have hnext := tagAt_mono s (Nat.succ_le_of_lt hlt)
    rw [Nat.succ_eq_add_one, tagAt_succ] at hnext
    omega
  · have hnext := tagAt_mono s (Nat.succ_le_of_lt hgt)
    rw [Nat.succ_eq_add_one, tagAt_succ] at hnext
    omega

/-- The rows from the program counter on stand in memory as in `m`, and so do the payloads of all rows that had no
operation there. -/
structure NopPayloadsKept (m : Memory) (s : State) : Prop where
  ahead   : ∀ addr, s.tagAt s.row ≤ addr → s.mem.read addr = m.read addr
  payload : ∀ i j, j < s.payloadLen → IsNopTag (m.read (s.tagAt i)) →
    s.mem.read (s.payAt i j) = m.read (s.payAt i j)

/-- A row leaves the rows after it and the other rows' payloads alone, and its own payload where it has no operation
(rules R62, R193). -/
theorem rowsKeep_nopPayloadsKept (m : Memory) : RowsKeep (NopPayloadsKept m) := by
  rintro s o h hrow ho ⟨hahead, hpayload⟩
  have hready := h.rowReady hrow
  have hconfig := (endsRow_runRow s o).control.toConfig
  obtain ⟨-, hsucc⟩ := h.runRow hrow o
  constructor
  case ahead =>
    intro addr haddr
    rw [hsucc, hconfig.tagAt, tagAt_succ] at haddr
    exact (hready.runRow_outside o addr (.inr haddr)).trans (hahead addr (by omega))
  case payload =>
    intro i j hj htag
    rw [hconfig.payloadLen] at hj
    rw [hconfig.tagAt] at htag
    rw [hconfig.payAt, ← hpayload i j hj htag]
    by_cases hi : i = s.row
    · subst hi
      rw [← hahead _ le_rfl] at htag
      obtain rfl : Op.nop = o :=
        Option.some.inj ((htag.decodeRow_op _).symm.trans (h.decodeRow_op hrow ho))
      rw [hready.runRow_mem_of_nop rfl, ← hready.tagAddr_eq]
      exact Memory.read_write_ne _ _ (hready.payAt_ne_tagAddr j)
    · exact hready.runRow_outside o _ (payAt_outside_row hi hj)

section
variable {s t : State} (h : LaunchPremises s) (hinv : Inv s) (hrun : core.run (s.nrows + 2) s.call = .next t)
include h hinv hrun

/-- A call leaves the configuration as it was (rule R199). -/
theorem LaunchPremises.call_config : SameConfig s t := by
  obtain ⟨u, rfl, -, hcontrol, -⟩ := h.call_keeps hinv hrun rowsKeep_true trivial
  exact ⟨hcontrol.params, hcontrol.base, hcontrol.nrows, hcontrol.rowlen, hcontrol.bpp, hcontrol.written⟩

/-- A call clears the tag of every row (rule R199). -/
theorem LaunchPremises.call_tags {i : Nat} (hi : i < s.nrows) : t.mem.read (s.tagAt i) = 0 := by
  obtain ⟨u, rfl, hend, hcontrol, hcleared⟩ :=
    h.call_keeps hinv hrun rowsKeep_tagsCleared fun _ hi => absurd hi (Nat.not_lt_zero _)
  rw [hend] at hcleared
  exact hcontrol.toConfig.tagAt i ▸ hcleared i hi

/-- A call keeps the payload of a row without an operation (rule R199). -/
theorem LaunchPremises.call_nop_payload {i : Nat} (htag : IsNopTag (s.mem.read (s.tagAt i))) :
    t.payload i = s.payload i := by
  obtain ⟨u, rfl, -, hcontrol, hkept⟩ :=
    h.call_keeps hinv hrun (rowsKeep_nopPayloadsKept s.mem) ⟨fun _ _ => rfl, fun _ _ _ _ => rfl⟩
  have hconfig := hcontrol.toConfig
  have hbytes := hkept.payload i
  simp only [hconfig.payloadLen, hconfig.tagAt, hconfig.payAt] at hbytes
  have hconfig' := h.call_config hinv hrun
  rw [State.payload, State.payload, hconfig'.payAt, hconfig'.payloadLen]
  exact Memory.readBytes_congr fun j hj => hbytes j hj htag

end

/-! The first row's alias -/

/-- A first row with tag 4 is a first row with tag 1 (rules R96, R130). -/
theorem unfilterRow_first_paeth {m : Memory} (hm : m.wf = true) (base rowlen bpp : Nat)
    (htag : m.read (base + 0 * rowlen) = 4) :
    unfilterRow base rowlen bpp 0 (m.write (base + 0 * rowlen) 1) = unfilterRow base rowlen bpp 0 m := by
  have hm' := Memory.write_wf m (base + 0 * rowlen) 1 hm
  have hread := Memory.read_write_same m (base + 0 * rowlen) 1 hm
  have hpayload : unfilterPayload (m.write (base + 0 * rowlen) 1) base rowlen bpp 0 .sub =
      unfilterPayload m base rowlen bpp 0 .sub := by
    have hfilt : (m.write (base + 0 * rowlen) 1).readBytes (base + 0 * rowlen + 1) (rowlen - 1) =
        m.readBytes (base + 0 * rowlen + 1) (rowlen - 1) :=
      Memory.readBytes_congr fun j _ => Memory.read_write_ne m 1 (by omega)
    simp only [unfilterPayload, hfilt, lt_irrefl, if_false]
  rw [unfilterRow_of_filter (o := .sub) (by rw [hread]; rfl) bpp rfl,
    unfilterRow_of_filter (o := .sub) (by rw [htag]; rfl) bpp rfl, hpayload]
  refine Memory.ext (Memory.write_wf _ _ _ (Memory.writeBytes_wf hm' _ _))
    (Memory.write_wf _ _ _ (Memory.writeBytes_wf hm _ _)) fun addr => ?_
  rw [Memory.read_write _ _ _ _ (Memory.writeBytes_wf hm' _ _),
    Memory.read_write _ _ _ _ (Memory.writeBytes_wf hm _ _)]
  split
  · rfl
  · exact Memory.read_writeBytes_congr hm' hm _ _ (Memory.read_write_ne m 1 ‹_›)

/-- A buffer whose first row has tag 4 is unfiltered as with tag 1 (rule R199). -/
theorem unfilter_first_paeth {m : Memory} (hm : m.wf = true) (base rowlen bpp : Nat)
    (htag : m.read (base + 0 * rowlen) = 4) (n : Nat) :
    unfilter base rowlen bpp (n + 1) (m.write (base + 0 * rowlen) 1) = unfilter base rowlen bpp (n + 1) m := by
  induction n with
  | zero => exact unfilterRow_first_paeth hm base rowlen bpp htag
  | succ n ih => exact congrArg (unfilterRow base rowlen bpp (n + 1)) ih

/-- A call with tag 1 in the first row leaves the memory that the call with tag 4 there leaves (rule R199). -/
theorem LaunchPremises.call_first_paeth {s t : State} (h : LaunchPremises s) (hinv : Inv s)
    (hrun : core.run (s.nrows + 2) s.call = .next t) (hn : 0 < s.nrows) (htag : s.mem.read (s.tagAt 0) = 4) :
    ∃ t', core.run (s.nrows + 2) (State.call { s with mem := s.mem.write (s.tagAt 0) 1 }) = .next t' ∧
      t'.mem = t.mem := by
  have hbase : s.tagAt 0 < 2 ^ s.params.aw := by
    simpa [State.tagAt] using hinv.base_lt
  have hinv' : Inv { s with mem := s.mem.write (s.tagAt 0) 1 } :=
    hinv.hostSide (Memory.write_wf _ _ _ hinv.mem_wf) (Memory.write_below _ _ hbase hinv.mem_below) s.host s.readData
  have h' : LaunchPremises { s with mem := s.mem.write (s.tagAt 0) 1 } := { h with legal := { h.legal with } }
  obtain ⟨t', hrun', -, -⟩ := h'.run_call_done hinv'
  obtain ⟨n, hn'⟩ := Nat.exists_eq_add_of_lt hn
  refine ⟨t', hrun', ?_⟩
  rw [h'.call_mem hinv' hrun', h.call_mem hinv hrun]
  show unfilter s.base s.rowlen s.bpp.toNat s.nrows _ = _
  rw [hn', Nat.zero_add]
  exact unfilter_first_paeth hinv.mem_wf _ _ _ htag n

/-! The kernels an engine has and selects -/

/-- The state of an engine with other feature bits and thresholds (rules R10, R35). -/
def State.withFeatures (s : State) (feat : BitVec 3) (thr : Thresholds) : State :=
  { s with params := { s.params with feat := feat, thr := thr } }

/-- The state of such an engine under another selection (rules R10, R35, R37). -/
def State.withKernels (s : State) (feat : BitVec 3) (thr : Thresholds) (sel : Sel) : State :=
  { s.withFeatures feat thr with sel := sel }

/-- PUE has every move and is not inside a row. -/
structure BetweenRows (s : State) : Prop where
  host  : s.host = []
  fetch : s.status = .busy → s.phase = .fetch

/-- The begin of a call leaves PUE between two rows (rules R181, R182). -/
theorem betweenRows_beginCall {s : State} (hhost : s.host = []) : BetweenRows s.beginCall := by
  by_cases hn : s.nrows = 0
  · rw [beginCall_of_empty hn]
    exact ⟨hhost, nofun⟩
  · rw [beginCall_of_rows hn]
    exact ⟨hhost, fun _ => rfl⟩

section
variable (feat : BitVec 3) (thr : Thresholds) (sel : Sel)

/-- Group steps look at no feature bit and no threshold (rules R187, R192). -/
theorem runGroups_withFeatures (s : State) (op : Filter) (n : Nat) :
    State.runGroups op n (s.withFeatures feat thr) = (State.runGroups op n s).withFeatures feat thr := by
  induction n generalizing s with
  | zero => rfl
  | succ n ih => exact ih (s.advanceGroup op)

/-- A row looks at no feature bit and no threshold (rules R187, R188). -/
theorem runRow_withFeatures (s : State) (o : Op) :
    (s.withFeatures feat thr).runRow o = (s.runRow o).withFeatures feat thr := by
  cases ho : filterOf o with
  | none =>
    rw [runRow_of_nop _ ho, runRow_of_nop _ ho]
    rfl
  | some op =>
    have hgroups := runGroups_withFeatures feat thr (s.beginRow o) op (s.beginRow o).groupsLeft
    rw [runRow_of_filterOf _ ho, runRow_of_filterOf _ ho]
    exact congrArg State.retireRow hgroups

/-- A row on another engine, under another selection, ends in the same state but for those (rules R163, R164). -/
theorem runRow_withKernels (s : State) (o : Op) :
    (s.withKernels feat thr sel).runRow o = (s.runRow o).withKernels feat thr sel := by
  rw [State.withKernels, runRow_withSel, runRow_withFeatures]
  rfl

/-- A step of PUE from between two rows ends between two rows, and does the same on another engine, under another
selection (rules R163, R164, R189, R195). -/
theorem BetweenRows.step_withKernels {s : State} (h : BetweenRows s) :
    ∃ t, step s = .next t ∧ BetweenRows t ∧
      step (s.withKernels feat thr sel) = .next (t.withKernels feat thr sel) := by
  have hstep : step s = s.pueMove := step_of_host_nil h.host
  have hstep' : step (s.withKernels feat thr sel) = (s.withKernels feat thr sel).pueMove :=
    step_of_host_nil h.host
  rw [hstep, hstep']
  by_cases hbusy : s.status = .busy
  · have hphase := h.fetch hbusy
    by_cases hrow : s.row = s.nrows
    · exact ⟨s.complete, pueMove_at_end hbusy hphase hrow, ⟨h.host, nofun⟩,
        pueMove_at_end (s := s.withKernels feat thr sel) hbusy hphase hrow⟩
    · obtain ⟨o, ho⟩ := decodeRow_op s.first s.fetchTag
      have hend := endsRow_runRow s o
      refine ⟨s.runRow o, ?_, ⟨hend.control.host.trans h.host, fun _ => hend.phase_eq⟩, ?_⟩
      · exact (pueMove_at_row hbusy hphase hrow).trans (exec_row ho s)
      · rw [← runRow_withKernels]
        exact (pueMove_at_row (s := s.withKernels feat thr sel) hbusy hphase hrow).trans (exec_row ho _)
  · exact ⟨s, pueMove_of_not_busy hbusy, h, pueMove_of_not_busy (s := s.withKernels feat thr sel) hbusy⟩

/-- PUE's run from between two rows is the same on another engine, under another selection. -/
theorem BetweenRows.run_withKernels {s t : State} (h : BetweenRows s) {n : Nat} (hrun : core.run n s = .next t) :
    core.run n (s.withKernels feat thr sel) = .next (t.withKernels feat thr sel) := by
  induction n generalizing s with
  | zero =>
    obtain rfl : s = t := Host.Outcome.next.inj hrun
    rfl
  | succ n ih =>
    obtain ⟨u, hstep, hu, hstep'⟩ := h.step_withKernels feat thr sel
    rw [run_succ_of_step hstep] at hrun
    exact (run_succ_of_step hstep' n).trans (ih hu hrun)

/-- The begin of a call on another engine selects by that engine's constants (rules R181, R186). -/
theorem beginCall_withFeatures (s : State) : (s.withFeatures feat thr).beginCall =
    s.beginCall.withKernels feat thr (selectAll (s.withFeatures feat thr).params s.bpp.toNat) := by
  by_cases hn : s.nrows = 0
  · rw [beginCall_of_empty hn, beginCall_of_empty (s := s.withFeatures feat thr) hn]
    rfl
  · rw [beginCall_of_rows hn, beginCall_of_rows (s := s.withFeatures feat thr) hn]
    rfl

/-- A call on another engine leaves the same memory (rule R199). -/
theorem LaunchPremises.call_withFeatures {s t : State} (h : LaunchPremises s)
    (hrun : core.run (s.nrows + 2) s.call = .next t) :
    ∃ t', core.run (s.nrows + 2) (s.withFeatures feat thr).call = .next t' ∧ t'.mem = t.mem := by
  have h' : LaunchPremises (s.withFeatures feat thr) := { h with legal := { h.legal with } }
  rw [run_succ_of_step h.step_call] at hrun
  have hsame := (betweenRows_beginCall rfl).run_withKernels feat thr
    (selectAll (s.withFeatures feat thr).params s.bpp.toNat) hrun
  have hbegin := beginCall_withFeatures feat thr { s with host := [] }
  exact ⟨_, (run_succ_of_step h'.step_call _).trans ((congrArg _ hbegin).trans hsame), rfl⟩

end

/-- Settles O36: the postconditions one by one, (c) by the one-function form of both calls. -/
theorem postconditionsOfACall : Obligations.PostconditionsOfACall := by
  intro s hinv h
  obtain ⟨t, hrun, hdone, -⟩ := h.run_call_done hinv
  have hconfig := h.call_config hinv hrun
  exact ⟨t, hrun, hdone, fun _ => h.call_tags hinv hrun, fun _ _ => h.call_nop_payload hinv hrun,
    h.call_first_paeth hinv hrun, ⟨hconfig.base, hconfig.nrows, hconfig.rowlen, h.call_outside hinv hrun⟩,
    fun feat thr => h.call_withFeatures feat thr hrun⟩

end Sys2Proof.Machine
end

section
/-! PROOFS. The entry checks of `START` (rules R225, R229): which one applies first, and when `START` aborts, is refused
or goes on. -/

namespace Sys2Proof.Machine

/-! Which check applies -/

/-- The length is bad when the payload is no whole number of groups (rule R225). -/
theorem lengthBad_eq_true_iff {s : State} : s.lengthBad = true ↔ (s.rowlen - 1) % s.bpp.toNat ≠ 0 :=
  bne_iff_ne

/-- The length leaves a call unspecified only where no check looks at it: with rows and without `STRICT` (rule
R225(b)). -/
theorem lengthUnspecified_eq_true_iff {s : State} : s.lengthUnspecified = true ↔
    s.nrows ≠ 0 ∧ s.params.strict = false ∧ (s.rowlen - 1) % s.bpp.toNat ≠ 0 := by
  rw [State.lengthUnspecified, Bool.and_eq_true, Bool.and_eq_true, decide_eq_true_eq, Bool.not_eq_true',
    lengthBad_eq_true_iff, and_assoc]

/-- A `BPP` of 0 is at most 8, so the second check is the first to apply (rule R229). -/
theorem entryChecks_of_bpp_zero {s : State} (h : s.bpp.toNat = 0) : s.entryChecks = some .bppZero :=
  (if_neg (by omega)).trans (if_pos h)

section
variable {s : State} (hbpp : s.bpp.toNat ≠ 0 ∧ s.bpp.toNat ≤ 8)
include hbpp

/-- With a legal `BPP` and no rows no check applies (rules R182, R229). -/
theorem entryChecks_of_no_rows (hrows : s.nrows = 0) : s.entryChecks = none := by
  rw [State.entryChecks, if_neg (not_lt.mpr hbpp.2), if_neg hbpp.1, if_pos hrows]

variable (hrows : 1 ≤ s.nrows)
include hrows

/-- With a legal `BPP` and rows the checks of the row's length and of the buffer's range are left, then the length's
(rule R229). -/
theorem entryChecks_of_rows : s.entryChecks =
    if s.rowlen = 0 then some .rowlenZero
    else if 2 ^ s.params.aw < s.base + s.nrows * s.rowlen then some .addrRange
    else if s.params.strict && s.lengthBad then some .lenNotMultiple
    else none := by
  rw [State.entryChecks, if_neg (not_lt.mpr hbpp.2), if_neg hbpp.1, if_neg (Nat.ne_zero_of_lt hrows)]

variable (hrowlen : s.rowlen ≠ 0)
include hrowlen

/-- A buffer that ends past the address space is the fourth check's (rules R224, R229). -/
theorem entryChecks_of_not_fits (hfits : ¬ s.base + s.nrows * s.rowlen ≤ 2 ^ s.params.aw) :
    s.entryChecks = some .addrRange := by
  rw [entryChecks_of_rows hbpp hrows, if_neg hrowlen, if_pos (not_le.mp hfits)]

variable (hfits : s.base + s.nrows * s.rowlen ≤ 2 ^ s.params.aw)
include hfits

/-- In a buffer that fits, a payload that is no whole number of groups is the fifth check's under `STRICT` (rules
R225(a), R229). -/
theorem entryChecks_of_length_bad (hstrict : s.params.strict = true)
    (hlen : (s.rowlen - 1) % s.bpp.toNat ≠ 0) : s.entryChecks = some .lenNotMultiple := by
  rw [entryChecks_of_rows hbpp hrows, if_neg hrowlen, if_neg (not_lt.mpr hfits), hstrict,
    lengthBad_eq_true_iff.mpr hlen]
  rfl

/-- In a buffer that fits, no check is left without `STRICT` or for a whole number of groups (rules R225, R229). -/
theorem entryChecks_of_fits (hlen : s.params.strict = false ∨ (s.rowlen - 1) % s.bpp.toNat = 0) :
    s.entryChecks = none := by
  have hfifth : ¬ (s.params.strict && s.lengthBad) = true := by
    rw [Bool.and_eq_true, lengthBad_eq_true_iff]
    rintro ⟨hstrict, hbad⟩
    exact hlen.elim (fun h => Bool.false_ne_true (h.symm.trans hstrict)) hbad
  rw [entryChecks_of_rows hbpp hrows, if_neg hrowlen, if_neg (not_lt.mpr hfits), if_neg hfifth]

end

/-! What `START` does of it -/

/-- The begin of a call is no abort (rules R181, R182). -/
theorem beginCall_not_aborted (s : State) : s.beginCall.status ≠ .aborted := by
  by_cases hn : s.nrows = 0
  · rw [beginCall_of_empty hn]
    nofun
  · rw [beginCall_of_rows hn]
    nofun

/-- A `START` that ends in `ABORTED` took the abort of the check that applies (rules R226, R229). -/
theorem raiseAbort_of_exec_start {s t : State} (hidle : s.status ≠ .busy) (h : exec .start s = .next t)
    (habort : t.status = .aborted) : ∃ c, s.entryChecks = some c ∧ t = s.raiseAbort c := by
  obtain ⟨hbusy, -⟩ | ⟨-, -, hcheck⟩ | ⟨-, -, -, -, rfl⟩ := execStart_cases h
  · exact absurd hbusy hidle
  · exact hcheck
  · exact absurd habort (beginCall_not_aborted s)

/-- `START` aborts with the code of the entry check that applies (rules R220, R226, R229). -/
theorem exec_start_aborts {s : State} (hidle : s.status ≠ .busy) (hw : s.written.all = true) {c : Cause}
    (hc : s.entryChecks = some c) :
    ∃ t, exec .start s = .next t ∧ t.status = .aborted ∧ t.cause = causeCode c :=
  ⟨s.raiseAbort c, exec_start_of_entryCheck hidle hw hc, rfl, rfl⟩

/-- `START` without a check that applies is refused where the length leaves the call unspecified (rule R225(b)). -/
theorem exec_start_of_lengthUnspecified {s : State} (hidle : s.status ≠ .busy) (hw : s.written.all = true)
    (hc : s.entryChecks = none) (hlen : s.lengthUnspecified = true) :
    exec .start s = .refused .lengthNotMultiple := by
  simp [exec, execStart, hidle, hw, hc, hlen]

/-- An abort keeps the configuration (rule R227). -/
theorem raiseAbort_config (s : State) (c : Cause) : SameConfig s (s.raiseAbort c) :=
  ⟨rfl, rfl, rfl, rfl, rfl, rfl⟩

/-- An abort keeps every byte outside the buffer (rule R227). -/
theorem raiseAbort_outside (s : State) (c : Cause) : OutsideBufferKept s (s.raiseAbort c) :=
  fun _ => s.read_forgetBuffer_outside

/-- Settles O29: each code by the check that applies first, and no code where none applies. -/
theorem entryChecksReportTheLowestCode : Obligations.EntryChecksReportTheLowestCode := by
  intro s hidle hw aborts legalBpp fits
  have haborts {c : Cause} (hc : s.entryChecks = some c) : aborts (causeCode c) :=
    exec_start_aborts hidle hw hc
  refine ⟨fun hbig => haborts (if_pos hbig), fun hzero => haborts (entryChecks_of_bpp_zero hzero),
    fun hbpp hrows hzero => haborts ((entryChecks_of_rows hbpp hrows).trans (if_pos hzero)),
    fun hbpp hrows hrowlen hfits => haborts (entryChecks_of_not_fits hbpp hrows hrowlen hfits),
    fun hbpp hrows hrowlen hfits hstrict hlen =>
      haborts (entryChecks_of_length_bad hbpp hrows hrowlen hfits hstrict hlen), ?_⟩
  rintro hbpp hpass code ⟨t, hexec, habort, -⟩
  have hnone : s.entryChecks = none := by
    rcases Nat.eq_zero_or_pos s.nrows with hzero | hrows
    · exact entryChecks_of_no_rows hbpp hzero
    · obtain ⟨hrowlen, hfits, hlen⟩ := hpass.resolve_left (Nat.ne_zero_of_lt hrows)
      exact entryChecks_of_fits hbpp hrows hrowlen hfits hlen
  obtain ⟨c, hc, -⟩ := raiseAbort_of_exec_start hidle hexec habort
  exact Option.some_ne_none c (hc.symm.trans hnone)

/-- Settles O30: the state is the abort's, which forgets the buffer and nothing beside it. -/
theorem abortTouchesNothingOutsideTheBuffer : Obligations.AbortTouchesNothingOutsideTheBuffer := by
  intro s t hidle hexec habort
  obtain ⟨c, -, rfl⟩ := raiseAbort_of_exec_start hidle hexec habort
  obtain ⟨hpos, hle⟩ := State.causeCode_range c
  exact ⟨hpos, hle, raiseAbort_config s c, raiseAbort_outside s c, rfl, rfl⟩

/-- Settles O31: the fifth check under `STRICT`, the refusal without, else the launch premises. -/
theorem lengthNotAMultipleAbortsOrIsRefused : Obligations.LengthNotAMultipleAbortsOrIsRefused := by
  intro s hidle hw hpos hle hrowlen hfits
  have hbpp : s.bpp.toNat ≠ 0 ∧ s.bpp.toNat ≤ 8 := ⟨Nat.ne_zero_of_lt hpos, hle⟩
  have hrowlen' : s.rowlen ≠ 0 := Nat.ne_zero_of_lt hrowlen
  refine ⟨fun hlen hrows hstrict => ?_, fun hlen hrows hstrict => ?_, fun hwhole => ?_⟩
  · exact exec_start_aborts hidle hw (entryChecks_of_length_bad hbpp hrows hrowlen' hfits hstrict hlen)
  · have hnone := entryChecks_of_fits hbpp hrows hrowlen' hfits (.inl hstrict)
    exact exec_start_of_lengthUnspecified hidle hw hnone
      (lengthUnspecified_eq_true_iff.mpr ⟨Nat.ne_zero_of_lt hrows, hstrict, hlen⟩)
  · have hlegal : LegalCall s := ⟨hpos, hle, .inr hrowlen, .inr hfits, hwhole.symm⟩
    exact ⟨s.beginCall, LaunchPremises.exec_start ⟨hidle, hw, hlegal⟩, beginCall_not_aborted s⟩

end Sys2Proof.Machine
end

section
/-! PROOFS. Reset and the configuration: who changes the four configuration registers (rule R253), when `START` goes on
(rule R255), and the reset input (rules R250 to R252). -/

namespace Sys2Proof.Machine

/-! Moves that keep the configuration -/

/-- The configuration does not look at the host's moves: one used up is no change. -/
theorem SameConfig.of_host {s t : State} {rest : List HostCmd} (h : SameConfig { s with host := rest } t) :
    SameConfig s t :=
  { h with }

/-- The begin of a call keeps the configuration (rules R181, R182). -/
theorem beginCall_config (s : State) : SameConfig s s.beginCall := by
  by_cases hn : s.nrows = 0
  · rw [beginCall_of_empty hn]
    exact ⟨rfl, rfl, rfl, rfl, rfl, rfl⟩
  · rw [beginCall_of_rows hn]
    exact ⟨rfl, rfl, rfl, rfl, rfl, rfl⟩

/-- `START` keeps the configuration, whether it is ignored, aborts or begins a call. -/
theorem execStart_config {s t : State} (h : execStart s = .next t) : SameConfig s t := by
  obtain ⟨-, rfl⟩ | ⟨-, -, c, -, rfl⟩ | ⟨-, -, -, -, rfl⟩ := execStart_cases h
  · exact (SameControl.refl t).toConfig
  · exact raiseAbort_config s c
  · exact beginCall_config s

/-- PUE's own move keeps the configuration. -/
theorem pueMove_config {s t : State} (h : s.pueMove = .next t) : SameConfig s t := by
  obtain ⟨-, rfl⟩ | ⟨-, -, -, rfl⟩ | ⟨-, -, -, op, -, rfl⟩ | ⟨-, hphase, rfl⟩ := pueMove_cases h
  · exact (SameControl.refl t).toConfig
  · exact ⟨rfl, rfl, rfl, rfl, rfl, rfl⟩
  · exact (s.runRow_spec op).1.toConfig
  · exact (s.finishRow_spec hphase).1.toConfig

/-- A step keeps the configuration, or is a configuration write, or is the reset input. -/
theorem step_config_cases {s t : State} (h : step s = .next t) :
    SameConfig s t ∨
    (∃ r v rest, s.host = .writeReg r v :: rest ∧ t = State.writeConfig { s with host := rest } r v) ∨
    ∃ rest, s.host = .reset :: rest := by
  obtain (⟨-, hp⟩ | ⟨rest, -, hp⟩) | ⟨c, rest, hhost, hc⟩ := step_cases h
  · exact .inl (pueMove_config hp)
  · exact .inl (pueMove_config hp).of_host
  · obtain ⟨r, v, rfl, ⟨-, hctrl⟩ | ⟨-, hwrite⟩⟩ | ⟨r, -, rfl⟩ | ⟨addr, v, -, -, -, rfl⟩ |
      ⟨addr, -, -, -, rfl⟩ | ⟨rfl, -⟩ := hc
    · obtain ⟨-, hstart⟩ | ⟨-, rfl⟩ := hctrl
      · exact .inl (execStart_config hstart).of_host
      · exact .inl ⟨rfl, rfl, rfl, rfl, rfl, rfl⟩
    · exact .inr (.inl ⟨r, v, rest, hhost, hwrite⟩)
    · exact .inl ⟨rfl, rfl, rfl, rfl, rfl, rfl⟩
    · exact .inl ⟨rfl, rfl, rfl, rfl, rfl, rfl⟩
    · exact .inl ⟨rfl, rfl, rfl, rfl, rfl, rfl⟩
    · exact .inr (.inr ⟨rest, hhost⟩)

/-! The configuration registers and their marks -/

/-- A configuration write keeps each configuration register and its mark but those of the register it names (rules
R31 to R34, R253). -/
theorem writeConfig_keeps_others (s : State) (r : CReg) (v : Nat) :
    let t := s.writeConfig r v
    (r ≠ .base → t.base = s.base ∧ t.written.base = s.written.base) ∧
    (r ≠ .nrows → t.nrows = s.nrows ∧ t.written.nrows = s.written.nrows) ∧
    (r ≠ .rowlen → t.rowlen = s.rowlen ∧ t.written.rowlen = s.written.rowlen) ∧
    (r ≠ .bpp → t.bpp = s.bpp ∧ t.written.bpp = s.written.bpp) := by
  by_cases hb : s.status = .busy
  · simp [writeConfig_of_busy hb]
  · cases r <;> simp [State.writeConfig, hb]

/-- A mark not set leaves the configuration incomplete (premise `P_CONFIG` of rule R255). -/
theorem Written.all_eq_false_iff {w : Written} : w.all = false ↔
    w.base = false ∨ w.nrows = false ∨ w.rowlen = false ∨ w.bpp = false := by
  simp only [Written.all, Bool.and_eq_false_iff, or_assoc]

/-- Settles O32: the refusal by the marks, the frame by the cases of a step, and the writes one by one. -/
theorem unwrittenConfigurationIsRefused : Obligations.UnwrittenConfigurationIsRefused := by
  refine ⟨fun s hidle hw => exec_start_of_unwritten hidle (Written.all_eq_false_iff.mpr hw),
    fun s t hstep => ?_, fun s v rest hidle => ?_⟩
  · obtain hkept | ⟨r, v, rest, hhost, rfl⟩ | hreset := step_config_cases hstep
    · have hmarks := hkept.written
      exact ⟨.inl ⟨hkept.base, congrArg _ hmarks⟩, .inl ⟨hkept.nrows, congrArg _ hmarks⟩,
        .inl ⟨hkept.rowlen, congrArg _ hmarks⟩, .inl ⟨hkept.bpp, congrArg _ hmarks⟩⟩
    · obtain ⟨hbase, hnrows, hrowlen, hbpp⟩ := writeConfig_keeps_others { s with host := rest } r v
      have keptOrWritten (q : CReg) {Kept Reset : Prop} (hkept : r ≠ q → Kept) :
          Kept ∨ (∃ v rest, s.host = .writeReg q v :: rest) ∨ Reset := by
        by_cases hq : r = q
        · exact .inr (.inl ⟨v, rest, hq ▸ hhost⟩)
        · exact .inl (hkept hq)
      exact ⟨keptOrWritten .base hbase, keptOrWritten .nrows hnrows, keptOrWritten .rowlen hrowlen,
        keptOrWritten .bpp hbpp⟩
    · exact ⟨.inr (.inr hreset), .inr (.inr hreset), .inr (.inr hreset), .inr (.inr hreset)⟩
  · refine ⟨fun hhost => ?_, fun hhost => ?_, fun hhost => ?_, fun hhost => ?_⟩ <;>
      exact ⟨_, step_of_writeConfig (by decide) hhost, by simp [State.writeConfig, hidle, State.wrap]⟩

/-! `START` under the launch premises, and the reset input -/

/-- Settles O34: of the ways `START` completes only the begin of a call is no abort, and its checks are the
premises. -/
theorem callHasMeaningExactlyUnderThePremises : Obligations.CallHasMeaningExactlyUnderThePremises := by
  intro s hidle
  constructor
  · rintro ⟨t, hexec, hgoes⟩
    obtain ⟨hbusy, -⟩ | ⟨-, -, c, -, rfl⟩ | ⟨-, hw, hchecks, hlen, -⟩ := execStart_cases hexec
    · exact absurd hbusy hidle
    · exact absurd rfl hgoes
    · exact ⟨hidle, hw, legalCall_of_entryChecks hchecks hlen⟩
  · intro h
    exact ⟨s.beginCall, h.exec_start, beginCall_not_aborted s⟩

/-- The reset input leaves memory alone where no call was running (rule R251). -/
theorem resetInput_mem_of_not_busy {s : State} (h : s.status ≠ .busy) : s.resetInput.mem = s.mem := if_neg h

/-- The reset input leaves every byte outside the running call's buffer alone (rule R252). -/
theorem resetInput_outside {s : State} (h : s.status = .busy) : OutsideBufferKept s s.resetInput := by
  intro addr houtside
  rw [State.resetInput_mem, if_pos h]
  exact s.read_forgetBuffer_outside houtside

/-- Settles O44: the step is the reset input, at the state with the host's move used up. -/
theorem resetInputEndsTheCall : Obligations.ResetInputEndsTheCall := by
  intro s rest hhost
  let u : State := { s with host := rest }
  exact ⟨u.resetInput, step_of_host_cons hhost, rfl, rfl, rfl, rfl, rfl,
    resetInput_mem_of_not_busy (s := u), resetInput_outside (s := u)⟩

end Sys2Proof.Machine
end
